-- ==== Sys2Proof/Word.lean ====
section
/-! DEFINITION. The value types of the codec: bytes, the 16-bit accumulator, frames, the two indices, the timeout. -/

namespace Sys2Proof

/-- A frame element: one 8-bit byte, unsigned (00_scope.md R8 `BYTE_BITS`, R11). -/
abbrev Byte := BitVec 8

/-- The checksum accumulator's word: 16 bits, unsigned (00_scope.md R8 `ACC_BITS`, 10_state.md R23). -/
abbrev Half := BitVec 16

/-- A frame: exactly eight bytes, index 0 first on the wire (30_encoding.md R60, R62).
It is also the type of the frame registers `TXF` and `RXF`, the codec's only two address spaces (20_memory.md R40). -/
abbrev Frame := Vector Byte 8

/-- `TXI` and `RXI`: an integer 0 to 8; the values 9 to 15 of the four bits are no states of the machine
(10_state.md R22, R25, R33; 93_implementation_defined.md V4). -/
abbrev Index := Fin 9

/-- The value a caller hands to the transport's blocking receive. Opaque: no unit, no range, and no operation looks
inside it (00_scope.md R9, 43_commands.md R167). The token only tells one timeout from another. -/
structure Timeout where
  token : Nat
  deriving DecidableEq, Repr, Inhabited

end Sys2Proof
end

