-- ==== Sys2Proof/Config.lean ====
section
/-! DEFINITION. What is fixed for one machine: the constants the spec gives, the named parameters it gives no value
for, and the free values (what the spec leaves to any value). -/

namespace Sys2Proof

/-- The one-byte parameters the spec names and gives no value for: eleven opcodes and fourteen AckCode values
(00_scope.md R9, 30_encoding.md R68, R69). Nothing here says that two of them differ. -/
structure Vocab where
  opOpen : Byte
  opClose : Byte
  opLed : Byte
  opIsPressed : Byte
  opEnroll : Byte
  opDeleteOne : Byte
  opDeleteAll : Byte
  opUserCount : Byte
  opIdentify : Byte
  opLastId : Byte
  opCancelEnroll : Byte
  ackSuccess : Byte
  ackFail : Byte
  ackFull : Byte
  ackNoUser : Byte
  ackUserExists : Byte
  ackTimeout : Byte
  ackMalformed : Byte
  ackInterrupted : Byte
  ackInvalidParam : Byte
  ackUnsupported : Byte
  ackOverexposed : Byte
  ackDuplicate : Byte
  ackIncompletePress : Byte
  ackPoorQuality : Byte
  deriving DecidableEq, Repr, Inhabited

/-- How one `TWrite` ends: every byte sent, a failure after some prefix of the bytes has reached the module, or never
(20_memory.md R49, 43_commands.md R150, 70_reset_and_hazards.md R210, R215, 93_implementation_defined.md U10, U11). -/
inductive WriteOutcome where
  /-- `Ok()`: every byte was sent, in order. -/
  | sent
  /-- `Err(TransportError)`: at most the first `delivered` bytes reached the module. -/
  | failed (delivered : Nat)
  /-- The call never returns; at most the first `delivered` bytes reach the module. -/
  | never (delivered : Nat)
  deriving DecidableEq, Repr, Inhabited

/-- The transport's answer to one `TWrite`: how it ends, and the bytes that the transport pushes into the receive side
while the host waits in it (20_memory.md R48; 43_commands.md R168; assumption log 4). -/
structure WriteAnswer where
  outcome : WriteOutcome
  arrived : List Byte
  deriving DecidableEq, Repr, Inhabited

/-- The transport's answer to one `TRead`: the bytes that it pushes while the host waits in it, and whether the call
ever returns (20_memory.md R50, 70_reset_and_hazards.md R210, R215; assumption log 4). -/
structure ReadAnswer where
  arrived : List Byte
  returns : Bool
  deriving DecidableEq, Repr, Inhabited

/-- `MARKER`: start marker and end marker (00_scope.md R8, 10_state.md R29). -/
def Config.marker : Byte := 0xF5

/-- `ACK_FINGER_NOT_PRESENT`, the one AckCode value the source gives (00_scope.md R8, 30_encoding.md R69). -/
def Config.ackFingerNotPresent : Byte := 0xB1

/-- The machine's binding of the named parameters. No value is known (00_scope.md R9; assumption log 1). -/
opaque Config.vocab : Vocab

/-- FREE VALUE: how the transport answers a `TWrite` for which the state lists no answer
(93_implementation_defined.md U10; assumption log 4). -/
opaque Config.freeWriteAnswer : Nat → WriteAnswer

/-- FREE VALUE: how the transport answers a `TRead` for which the state lists no answer
(93_implementation_defined.md U10; assumption log 4). -/
opaque Config.freeReadAnswer : Nat → ReadAnswer

/-- FREE VALUE: `TXF` after the operation `RESET` (70_reset_and_hazards.md R200; V1; assumption log 3). -/
opaque Config.freeTxf : Nat → Frame

/-- FREE VALUE: `ACC` after the operation `RESET` (70_reset_and_hazards.md R200; V3; assumption log 3). -/
opaque Config.freeAcc : Nat → Half

/-- FREE VALUE: `RXF` after the operation `RESET` (70_reset_and_hazards.md R200; V2; assumption log 3). -/
opaque Config.freeRxf : Nat → Frame

end Sys2Proof
end

