-- ==== Sys2Proof/Syntax.lean ====
section
/-! DEFINITION. The instructions (one constructor per row of spec/opcode_table.json), the forms in which an agent
issues one, the agents, and the command and AckCode vocabularies. -/

namespace Sys2Proof

/-- One constructor per row of spec/opcode_table.json. Every operand is an unsigned byte, all 256 values accepted
(30_encoding.md R66, R71, R74); the four response-bearing commands also carry the caller's timeout
(43_commands.md R156, R160 to R162, R167). -/
inductive Instr where
  /-- `CMD_OPEN` (43_commands.md R153). -/
  | cmdOpen
  /-- `CMD_CLOSE` (43_commands.md R154). -/
  | cmdClose
  /-- `CMD_LED(state)` (43_commands.md R155). -/
  | cmdLed (state : Byte)
  /-- `CMD_IS_PRESSED(timeout)` (43_commands.md R156). -/
  | cmdIsPressed (timeout : Timeout)
  /-- `CMD_ENROLL(slot)` (43_commands.md R157). -/
  | cmdEnroll (slot : Byte)
  /-- `CMD_DELETE_ONE(slot)` (43_commands.md R158). -/
  | cmdDeleteOne (slot : Byte)
  /-- `CMD_DELETE_ALL` (43_commands.md R159). -/
  | cmdDeleteAll
  /-- `CMD_USER_COUNT(timeout)` (43_commands.md R160). -/
  | cmdUserCount (timeout : Timeout)
  /-- `CMD_IDENTIFY(timeout)` (43_commands.md R161). -/
  | cmdIdentify (timeout : Timeout)
  /-- `CMD_LAST_ID(timeout)` (43_commands.md R162). -/
  | cmdLastId (timeout : Timeout)
  /-- `CMD_CANCEL_ENROLL` (43_commands.md R163). -/
  | cmdCancelEnroll
  /-- `REQUEST`: the general request frame, the pure function `BuildRequest` (41_serializer.md R110). -/
  | request (op p0 p1 p2 p3 : Byte)
  /-- `RESPONSE`: eight bytes from the module, the pure functions `ParseResponse` and `StatusOf`
  (42_deserializer.md R130, R131). -/
  | response (b0 b1 b2 b3 b4 b5 b6 b7 : Byte)
  /-- `CSUM op, p0, p1, p2, p3` (40_checksum.md R93). -/
  | csum (op p0 p1 p2 p3 : Byte)
  /-- `BUILD op, p0, p1, p2, p3` (41_serializer.md R112). -/
  | build (op p0 p1 p2 p3 : Byte)
  /-- `TXPOP` (41_serializer.md R113). -/
  | txpop
  /-- `SER` (41_serializer.md R114). -/
  | ser
  /-- `RXCLR` (42_deserializer.md R132). -/
  | rxclr
  /-- `RXPUSH b` (42_deserializer.md R133). -/
  | rxpush (b : Byte)
  /-- `PARSE` (42_deserializer.md R134). -/
  | parse
  /-- `RDSTAT` (42_deserializer.md R135). -/
  | rdstat
  /-- `RESET` (70_reset_and_hazards.md R200). -/
  | reset
  deriving DecidableEq, Repr

/-- The names by which operations are selected: there is no select code (30_encoding.md R75). One per row of the table. -/
inductive Mnemonic where
  | cmdOpen
  | cmdClose
  | cmdLed
  | cmdIsPressed
  | cmdEnroll
  | cmdDeleteOne
  | cmdDeleteAll
  | cmdUserCount
  | cmdIdentify
  | cmdLastId
  | cmdCancelEnroll
  | request
  | response
  | csum
  | build
  | txpop
  | ser
  | rxclr
  | rxpush
  | parse
  | rdstat
  | reset
  deriving DecidableEq, Repr

/-- Which way a frame crosses the serial link: the same layout serves requests and responses (30_encoding.md R60). -/
inductive Direction where
  | hostToModule
  | moduleToHost
  deriving DecidableEq, Repr

/-- How an instruction is written down. By name: a mnemonic, its operand bytes, and the caller's timeout where the
command takes one (30_encoding.md R74, R75). By frame: a direction and the bytes on the wire, with the timeout of a
response-bearing command beside them, since no frame carries it (30_encoding.md R60, R67). -/
inductive Code where
  | named (m : Mnemonic) (operands : List Byte) (timeout : Option Timeout)
  | frame (dir : Direction) (bytes : List Byte) (timeout : Timeout)
  deriving DecidableEq, Repr

/-- What an agent may do next: issue an instruction, or (the host) call one of the two transport primitives itself
(00_scope.md R10, 43_commands.md R150). -/
inductive Event where
  | issue (c : Code)
  | twrite (bytes : List Byte)
  | tread (timeout : Timeout)
  deriving DecidableEq, Repr

/-- The kinds of agent that issue operations (00_scope.md R10; the platform may issue `RESET`, 70_reset_and_hazards.md R200).
The codec is the third agent of R10 and never acts on its own. -/
inductive Agent where
  | host
  | transport
  | platform
  deriving DecidableEq, Repr

/-- Who issued an event: one of the callers, the transport or the platform. There should be one caller at a time, but
callers that do not exclude each other are admitted (20_memory.md R48, R53; 70_reset_and_hazards.md R209). -/
inductive Issuer where
  | host (caller : Nat)
  | transport
  | platform
  deriving DecidableEq, Repr

/-- The kind of agent an issuer is. -/
def Issuer.agent : Issuer → Agent
  | .host _ => .host
  | .transport => .transport
  | .platform => .platform

/-- An event with the agent that issued it. -/
structure Issued where
  issuer : Issuer
  event : Event
  deriving DecidableEq, Repr

/-- The eleven commands of the Command Vocabulary (30_encoding.md R67). -/
inductive Command where
  | openModule
  | closeModule
  | led
  | isPressed
  | enroll
  | deleteOne
  | deleteAll
  | userCount
  | identify
  | lastId
  | cancelEnroll
  deriving DecidableEq, Repr

/-- The fifteen AckCode names, in the source's order (30_encoding.md R69). DESIGN CHOICE (assumption log 19): the type has
no other name, where R69 leaves open whether the module has further enrollment-quality codes. -/
inductive AckName where
  | success
  | fail
  | full
  | noUser
  | userExists
  | timeout
  | malformed
  | interrupted
  | invalidParam
  | fingerNotPresent
  | unsupported
  | overexposed
  | duplicate
  | incompletePress
  | poorQuality
  deriving DecidableEq, Repr

/-- What ends an operation that does not succeed: the codec's one error and the transport's one error
(00_scope.md R13, 60_exceptions.md R180, R184). Neither has a number or a payload. -/
inductive ErrorKind where
  | shortFrame
  | transportError
  deriving DecidableEq, Repr

/-- One call of a transport primitive, as the transport sees it (43_commands.md R150). -/
inductive TransportCall where
  | write (bytes : List Byte)
  | read (n : Nat) (timeout : Timeout)
  deriving DecidableEq, Repr

/-- What an operation gives to the agent that issued it (00_scope.md R13, R15 (a); 30_encoding.md R74). -/
inductive Result where
  /-- Nothing is returned. -/
  | nothing
  /-- A byte: `CSUM`, `RDSTAT`. -/
  | byte (b : Byte)
  /-- `Some(b)` or `None`: `TXPOP`. -/
  | popped (b : Option Byte)
  /-- A byte sequence: `SER`. -/
  | bytes (bs : List Byte)
  /-- A frame: `PARSE`, `BuildRequest`. -/
  | frame (f : Frame)
  /-- A parsed response and its status byte: `ParseResponse` and `StatusOf`. -/
  | response (f : Frame) (status : Byte)
  /-- `Ok()` of a host command or a transport primitive. -/
  | ok
  /-- `Ok(v)` of a host command. -/
  | okByte (v : Byte)
  /-- A codec operation ended with an error (`raise E`). -/
  | raised (e : ErrorKind)
  /-- `Err(E)` of a host command or a transport primitive. -/
  | err (e : ErrorKind)
  /-- Nothing yet: the host is still inside a transport call that does not return (70_reset_and_hazards.md R210). -/
  | pending
  deriving DecidableEq, Repr

end Sys2Proof
end

