-- ==== Sys2Proof/Machine/FrameFormat.lean ====
section
/-! DEFINITION. The pure functions of the spec (00_scope.md R14): checksum, frame layout, builder, serializer, parser,
the well-formedness predicates, the 64-bit writing of a frame, and the classification of a status byte. -/

namespace Sys2Proof.Machine

/-- `zext_16` (00_scope.md R11). -/
def zext16 (b : Byte) : Half := b.setWidth 16

/-- `ACC[7:0]`: the truncation to the low 8 bits (40_checksum.md R90). -/
def lowByte (h : Half) : Byte := h.extractLsb' 0 8

/-- The bytewise accumulation: cleared to 0, then each byte zero-extended and added modulo 65536, in order
(40_checksum.md R91, R94). -/
def accumulate (bs : List Byte) : Half := bs.foldl (fun acc b => acc + zext16 b) 0

/-- `Sum16`: opcode, then the four parameter bytes (40_checksum.md R90 to R92). -/
def sum16 (op p0 p1 p2 p3 : Byte) : Half := accumulate [op, p0, p1, p2, p3]

/-- `Checksum` (40_checksum.md R90). -/
def checksum (op p0 p1 p2 p3 : Byte) : Byte := lowByte (sum16 op p0 p1 p2 p3)

/-- The wire layout of a request whose checksum byte is `k` (30_encoding.md R60). -/
def requestLayout (op p0 p1 p2 p3 k : Byte) : Frame :=
  #v[Config.marker, op, p0, p1, p2, p3, k, Config.marker]

/-- `BuildRequest` (41_serializer.md R110). -/
def buildRequest (op p0 p1 p2 p3 : Byte) : Frame :=
  requestLayout op p0 p1 p2 p3 (checksum op p0 p1 p2 p3)

/-- `Serialize`: the eight bytes, index 0 first on the wire (41_serializer.md R111). -/
def serialize (f : Frame) : List Byte := [f[0], f[1], f[2], f[3], f[4], f[5], f[6], f[7]]

/-- `ParseResponse`: a sequence of exactly eight bytes read back by position, with no check of any kind
(42_deserializer.md R130, R136). -/
def parseResponse (s : Vector Byte 8) : Frame := #v[s[0], s[1], s[2], s[3], s[4], s[5], s[6], s[7]]

/-- `f.start_marker` (30_encoding.md R62). -/
def startMarker (f : Frame) : Byte := f[0]

/-- `f.opcode` (30_encoding.md R62). -/
def opcode (f : Frame) : Byte := f[1]

/-- `f.parameter[i]`, at frame byte `2 + i` (30_encoding.md R62). -/
def parameter (f : Frame) (i : Fin 4) : Byte := f[2 + i.val]

/-- `f.checksum` (30_encoding.md R62). -/
def checksumByte (f : Frame) : Byte := f[6]

/-- `f.end_marker` (30_encoding.md R62). -/
def endMarker (f : Frame) : Byte := f[7]

/-- `StatusOf`: the byte aligned with the first parameter, raw (42_deserializer.md R131, 30_encoding.md R63). -/
def statusOf (f : Frame) : Byte := parameter f 0

/-- `MarkersOK` (30_encoding.md R77): for statements only, no operation's result depends on it. -/
def markersOK (f : Frame) : Bool := startMarker f == Config.marker && endMarker f == Config.marker

/-- `ChecksumOK` (30_encoding.md R77): for statements and the request decoder only. -/
def checksumOK (f : Frame) : Bool :=
  checksumByte f == checksum (opcode f) (parameter f 0) (parameter f 1) (parameter f 2) (parameter f 3)

/-- A frame written as one 64-bit word: byte 0 is the most significant byte (30_encoding.md R61). -/
def frameWord (f : Frame) : BitVec 64 :=
  f[0] ++ f[1] ++ f[2] ++ f[3] ++ f[4] ++ f[5] ++ f[6] ++ f[7]

/-- The fifteen AckCode names in the source's order (30_encoding.md R69). -/
def ackNames : List AckName :=
  [.success, .fail, .full, .noUser, .userExists, .timeout, .malformed, .interrupted, .invalidParam, .fingerNotPresent,
    .unsupported, .overexposed, .duplicate, .incompletePress, .poorQuality]

/-- The value of an AckCode name (00_scope.md R8, R9). -/
def ackValue (v : Vocab) : AckName → Byte
  | .success => v.ackSuccess
  | .fail => v.ackFail
  | .full => v.ackFull
  | .noUser => v.ackNoUser
  | .userExists => v.ackUserExists
  | .timeout => v.ackTimeout
  | .malformed => v.ackMalformed
  | .interrupted => v.ackInterrupted
  | .invalidParam => v.ackInvalidParam
  | .fingerNotPresent => Config.ackFingerNotPresent
  | .unsupported => v.ackUnsupported
  | .overexposed => v.ackOverexposed
  | .duplicate => v.ackDuplicate
  | .incompletePress => v.ackIncompletePress
  | .poorQuality => v.ackPoorQuality

/-- `AckDecode`: the name whose value is `b`, if exactly one name has it (30_encoding.md R78). No operation applies it. -/
def ackDecode (v : Vocab) (b : Byte) : Option AckName :=
  match ackNames.filter (fun n => ackValue v n == b) with
  | [n] => some n
  | _ => none

end Sys2Proof.Machine
end

