-- ==== Sys2Proof/Decode.lean ====
section
/-! DEFINITION. Decoding what an agent issues (by name or by frame) into an instruction, rejecting by name; and, after
it, the encoder and the numbering of a frame's bits in spec/opcode_table.json. -/

namespace Sys2Proof

/-- Why a code is no instruction. -/
inductive DecodeError where
  /-- A frame is always eight bytes long (30_encoding.md R73). -/
  | badLength (n : Nat)
  /-- A request frame begins and ends with 0xF5 (30_encoding.md R60, R64). -/
  | badMarkers
  /-- A request's checksum byte is computed, not free (30_encoding.md R61, 40_checksum.md R99). -/
  | badChecksum
  /-- The operation does not take these operands (30_encoding.md R74, 40_checksum.md R93, 43_commands.md R165). -/
  | badOperands (m : Mnemonic)
  deriving DecidableEq, Repr

/-- The answer of the decoder: an instruction, or a rejection by name. -/
inductive Decoded where
  | instr (i : Instr)
  | rejected (e : DecodeError)
  deriving DecidableEq, Repr

/-- The eleven commands in the table's order (30_encoding.md R67). -/
def commands : List Command :=
  [.openModule, .closeModule, .led, .isPressed, .enroll, .deleteOne, .deleteAll, .userCount, .identify, .lastId,
    .cancelEnroll]

/-- The opcode parameter of a command (30_encoding.md R67, third column). -/
def commandOpcode (v : Vocab) : Command → Byte
  | .openModule => v.opOpen
  | .closeModule => v.opClose
  | .led => v.opLed
  | .isPressed => v.opIsPressed
  | .enroll => v.opEnroll
  | .deleteOne => v.opDeleteOne
  | .deleteAll => v.opDeleteAll
  | .userCount => v.opUserCount
  | .identify => v.opIdentify
  | .lastId => v.opLastId
  | .cancelEnroll => v.opCancelEnroll

/-- Whether `parameter[0]` carries an operand; otherwise it is unused and 0 (30_encoding.md R66, R67). -/
def commandTakesOperand : Command → Bool
  | .led | .enroll | .deleteOne => true
  | .openModule | .closeModule | .isPressed | .deleteAll | .userCount | .identify | .lastId | .cancelEnroll => false

/-- The instruction of a command, with the operand byte and the caller's timeout where it takes them
(30_encoding.md R67, 43_commands.md R153 to R163). -/
def commandInstr (a : Byte) (t : Timeout) : Command → Instr
  | .openModule => .cmdOpen
  | .closeModule => .cmdClose
  | .led => .cmdLed a
  | .isPressed => .cmdIsPressed t
  | .enroll => .cmdEnroll a
  | .deleteOne => .cmdDeleteOne a
  | .deleteAll => .cmdDeleteAll
  | .userCount => .cmdUserCount t
  | .identify => .cmdIdentify t
  | .lastId => .cmdLastId t
  | .cancelEnroll => .cmdCancelEnroll

/-- A request frame's opcode and parameters fit the command's row of the table: the opcode is the command's, the unused
parameter bytes are 0 (30_encoding.md R67). -/
def fitsCommand (v : Vocab) (op p0 p1 p2 p3 : Byte) (k : Command) : Bool :=
  p1 == 0 && p2 == 0 && p3 == 0 && (commandTakesOperand k || p0 == 0) && op == commandOpcode v k

/-- The commands whose row a request frame fits. More than one is possible, since the opcodes need not differ
(00_scope.md R9). -/
def fittingCommands (v : Vocab) (op p0 p1 p2 p3 : Byte) : List Command :=
  commands.filter (fitsCommand v op p0 p1 p2 p3)

/-- The instruction a request frame stands for: the one command it fits, else the general request
(30_encoding.md R67, R68; assumption log 6). -/
def classifyRequest (v : Vocab) (op p0 p1 p2 p3 : Byte) (t : Timeout) : Instr :=
  match fittingCommands v op p0 p1 p2 p3 with
  | [k] => commandInstr p0 t k
  | _ => .request op p0 p1 p2 p3

/-- Decode a frame by its direction. A request has its markers and its computed checksum; of a response nothing is
checked but its length (30_encoding.md R60, R61, R71, R72). -/
def decodeFrame (v : Vocab) (dir : Direction) (bytes : List Byte) (t : Timeout) : Decoded :=
  match bytes with
  | [b0, b1, b2, b3, b4, b5, b6, b7] =>
    match dir with
    | .moduleToHost => .instr (.response b0 b1 b2 b3 b4 b5 b6 b7)
    | .hostToModule =>
      if Machine.markersOK #v[b0, b1, b2, b3, b4, b5, b6, b7] then
        if Machine.checksumOK #v[b0, b1, b2, b3, b4, b5, b6, b7] then
          .instr (classifyRequest v b1 b2 b3 b4 b5 t)
        else .rejected .badChecksum
      else .rejected .badMarkers
  | _ => .rejected (.badLength bytes.length)

/-- An operation without operands. -/
def takesNone (m : Mnemonic) (i : Instr) (operands : List Byte) (t : Option Timeout) : Decoded :=
  match operands, t with
  | [], none => .instr i
  | _, _ => .rejected (.badOperands m)

/-- An operation with one operand byte. -/
def takesByte (m : Mnemonic) (f : Byte → Instr) (operands : List Byte) (t : Option Timeout) : Decoded :=
  match operands, t with
  | [b], none => .instr (f b)
  | _, _ => .rejected (.badOperands m)

/-- An operation whose only argument is the caller's timeout. -/
def takesTimeout (m : Mnemonic) (f : Timeout → Instr) (operands : List Byte) (t : Option Timeout) : Decoded :=
  match operands, t with
  | [], some d => .instr (f d)
  | _, _ => .rejected (.badOperands m)

/-- An operation with an opcode byte and exactly four parameter bytes (40_checksum.md R93, 41_serializer.md R110). -/
def takesFive (m : Mnemonic) (f : Byte → Byte → Byte → Byte → Byte → Instr) (operands : List Byte)
    (t : Option Timeout) : Decoded :=
  match operands, t with
  | [op, p0, p1, p2, p3], none => .instr (f op p0 p1 p2 p3)
  | _, _ => .rejected (.badOperands m)

/-- An operation over exactly eight bytes (42_deserializer.md R130). -/
def takesEight (m : Mnemonic) (f : Byte → Byte → Byte → Byte → Byte → Byte → Byte → Byte → Instr)
    (operands : List Byte) (t : Option Timeout) : Decoded :=
  match operands, t with
  | [b0, b1, b2, b3, b4, b5, b6, b7], none => .instr (f b0 b1 b2 b3 b4 b5 b6 b7)
  | _, _ => .rejected (.badOperands m)

/-- Decode a selection by name: the operand forms of 30_encoding.md R67 and R74. -/
def decodeNamed (m : Mnemonic) (operands : List Byte) (t : Option Timeout) : Decoded :=
  match m with
  | .cmdOpen => takesNone m .cmdOpen operands t
  | .cmdClose => takesNone m .cmdClose operands t
  | .cmdLed => takesByte m .cmdLed operands t
  | .cmdIsPressed => takesTimeout m .cmdIsPressed operands t
  | .cmdEnroll => takesByte m .cmdEnroll operands t
  | .cmdDeleteOne => takesByte m .cmdDeleteOne operands t
  | .cmdDeleteAll => takesNone m .cmdDeleteAll operands t
  | .cmdUserCount => takesTimeout m .cmdUserCount operands t
  | .cmdIdentify => takesTimeout m .cmdIdentify operands t
  | .cmdLastId => takesTimeout m .cmdLastId operands t
  | .cmdCancelEnroll => takesNone m .cmdCancelEnroll operands t
  | .request => takesFive m .request operands t
  | .response => takesEight m .response operands t
  | .csum => takesFive m .csum operands t
  | .build => takesFive m .build operands t
  | .txpop => takesNone m .txpop operands t
  | .ser => takesNone m .ser operands t
  | .rxclr => takesNone m .rxclr operands t
  | .rxpush => takesByte m .rxpush operands t
  | .parse => takesNone m .parse operands t
  | .rdstat => takesNone m .rdstat operands t
  | .reset => takesNone m .reset operands t

/-- Decode what an agent issues. Total; a rejection carries its name. -/
def decode (v : Vocab) : Code → Decoded
  | .named m operands t => decodeNamed m operands t
  | .frame dir bytes t => decodeFrame v dir bytes t

/-- The timeout put beside a frame that stands for no response-bearing command, or whose caller gave none
(assumption log 7). -/
def noTimeout : Timeout := ⟨0⟩

/-- The code of a request frame: `Serialize(BuildRequest(op, p))`, host to module (41_serializer.md R110, R111). -/
def requestCode (op p0 p1 p2 p3 : Byte) (t : Timeout) : Code :=
  .frame .hostToModule (Machine.serialize (Machine.buildRequest op p0 p1 p2 p3)) t

/-- The name and operands of an instruction (30_encoding.md R67, R74, R75). -/
def encodeNamed : Instr → Code
  | .cmdOpen => .named .cmdOpen [] none
  | .cmdClose => .named .cmdClose [] none
  | .cmdLed a => .named .cmdLed [a] none
  | .cmdIsPressed t => .named .cmdIsPressed [] (some t)
  | .cmdEnroll a => .named .cmdEnroll [a] none
  | .cmdDeleteOne a => .named .cmdDeleteOne [a] none
  | .cmdDeleteAll => .named .cmdDeleteAll [] none
  | .cmdUserCount t => .named .cmdUserCount [] (some t)
  | .cmdIdentify t => .named .cmdIdentify [] (some t)
  | .cmdLastId t => .named .cmdLastId [] (some t)
  | .cmdCancelEnroll => .named .cmdCancelEnroll [] none
  | .request op p0 p1 p2 p3 => .named .request [op, p0, p1, p2, p3] none
  | .response b0 b1 b2 b3 b4 b5 b6 b7 => .named .response [b0, b1, b2, b3, b4, b5, b6, b7] none
  | .csum op p0 p1 p2 p3 => .named .csum [op, p0, p1, p2, p3] none
  | .build op p0 p1 p2 p3 => .named .build [op, p0, p1, p2, p3] none
  | .txpop => .named .txpop [] none
  | .ser => .named .ser [] none
  | .rxclr => .named .rxclr [] none
  | .rxpush b => .named .rxpush [b] none
  | .parse => .named .parse [] none
  | .rdstat => .named .rdstat [] none
  | .reset => .named .reset [] none

/-- The encoding of an instruction: the frame of its row of the table, or, for the nine operations that have no binary
encoding, its name and operands (30_encoding.md R67, R74, R75). -/
def encode (v : Vocab) : Instr → Code
  | .cmdOpen => requestCode v.opOpen 0 0 0 0 noTimeout
  | .cmdClose => requestCode v.opClose 0 0 0 0 noTimeout
  | .cmdLed a => requestCode v.opLed a 0 0 0 noTimeout
  | .cmdIsPressed t => requestCode v.opIsPressed 0 0 0 0 t
  | .cmdEnroll a => requestCode v.opEnroll a 0 0 0 noTimeout
  | .cmdDeleteOne a => requestCode v.opDeleteOne a 0 0 0 noTimeout
  | .cmdDeleteAll => requestCode v.opDeleteAll 0 0 0 0 noTimeout
  | .cmdUserCount t => requestCode v.opUserCount 0 0 0 0 t
  | .cmdIdentify t => requestCode v.opIdentify 0 0 0 0 t
  | .cmdLastId t => requestCode v.opLastId 0 0 0 0 t
  | .cmdCancelEnroll => requestCode v.opCancelEnroll 0 0 0 0 noTimeout
  | .request op p0 p1 p2 p3 => requestCode op p0 p1 p2 p3 noTimeout
  | .response b0 b1 b2 b3 b4 b5 b6 b7 => .frame .moduleToHost [b0, b1, b2, b3, b4, b5, b6, b7] noTimeout
  | .csum op p0 p1 p2 p3 => encodeNamed (.csum op p0 p1 p2 p3)
  | .build op p0 p1 p2 p3 => encodeNamed (.build op p0 p1 p2 p3)
  | .txpop => encodeNamed .txpop
  | .ser => encodeNamed .ser
  | .rxclr => encodeNamed .rxclr
  | .rxpush b => encodeNamed (.rxpush b)
  | .parse => encodeNamed .parse
  | .rdstat => encodeNamed .rdstat
  | .reset => encodeNamed .reset

/-- The bytes of a table word of `nbits` bits, the most significant byte first: byte 0 of a frame is its word's bits
63 to 56 (30_encoding.md R61). -/
def tableBytes (nbits w : Nat) : List Byte :=
  (List.range (nbits / 8)).map fun k => BitVec.ofNat 8 (w >>> (8 * (nbits / 8 - 1 - k)))

/-- The direction of a table word: a word with both markers and its computed checksum is a request, any other eight
bytes can only be a response (30_encoding.md R61, R72; assumption log 6). -/
def tableDirection (bytes : List Byte) : Direction :=
  match bytes with
  | [b0, b1, b2, b3, b4, b5, b6, b7] =>
    if Machine.markersOK #v[b0, b1, b2, b3, b4, b5, b6, b7] && Machine.checksumOK #v[b0, b1, b2, b3, b4, b5, b6, b7]
    then .hostToModule else .moduleToHost
  | _ => .moduleToHost

/-- A table word as the code an agent would issue. -/
def tableCode (nbits w : Nat) : Code :=
  .frame (tableDirection (tableBytes nbits w)) (tableBytes nbits w) noTimeout

/-- Who issues a table word: the transport a response, a host a request (00_scope.md R10). -/
def tableIssuer (nbits w : Nat) : Issuer :=
  match tableDirection (tableBytes nbits w) with
  | .hostToModule => .host 0
  | .moduleToHost => .transport

/-- The instruction the decoder reads from a word numbered as spec/opcode_table.json numbers it. -/
def decodeTableWord (nbits w : Nat) : Option Instr :=
  match decode Config.vocab (tableCode nbits w) with
  | .instr i => some i
  | .rejected _ => none

end Sys2Proof
end

