-- ==== Sys2Proof/Machine/State.lean ====
section
/-! DEFINITION. The machine's state (plain data), its state after reset, and the reasons a step can stop. -/

namespace Sys2Proof.Machine

/-- The codec's five registers (10_state.md R20), then what the model keeps of the agents around it: the result the
last operation gave, the record of what an outside agent observes (00_scope.md R15), the transport's answers to come,
the operations the agents have issued and not yet performed, and the counter of free values. -/
structure State where
  /-- `TXF`, the transmit frame register (10_state.md R21). -/
  txf : Frame
  /-- `TXI`, the transmit index (10_state.md R22). -/
  txi : Index
  /-- `ACC`, the checksum accumulator (10_state.md R23). -/
  acc : Half
  /-- `RXF`, the receive frame register (10_state.md R24). -/
  rxf : Frame
  /-- `RXI`, the receive index (10_state.md R25). -/
  rxi : Index
  /-- What the operation last performed gave to its issuer (00_scope.md R13, R15 (a)). -/
  result : Result
  /-- Every byte the codec has emitted, oldest first (20_memory.md R42, R49). -/
  emitted : List Byte
  /-- Every call of a transport primitive, oldest first (00_scope.md R15 (c), 43_commands.md R150, R166). -/
  calls : List TransportCall
  /-- Every byte that has reached the module, oldest first (20_memory.md R49). -/
  delivered : List Byte
  /-- How the transport will answer the next `TWrite`s, the next one first (93_implementation_defined.md U10, U11). -/
  writeAnswers : List WriteAnswer
  /-- How the transport will answer the next `TRead`s, the next one first (20_memory.md R50; U10). -/
  readAnswers : List ReadAnswer
  /-- Who is inside a transport call that does not return (70_reset_and_hazards.md R210, R215). -/
  blocked : List Issuer
  /-- What the agents have issued and the machine has not yet performed, in the order it takes them
  (10_state.md R27, 20_memory.md R48). -/
  issued : List Issued
  /-- The model's own counter: how many free values have been drawn. -/
  draws : Nat
  deriving DecidableEq, Repr

/-- No step faults: every operation is legal in every state, and the two errors of the taxonomy are results that the
machine goes on from (60_exceptions.md R180, R187). Nobody raises one, hence safe. -/
inductive Fault where
  deriving DecidableEq, Repr

/-- Why a step has no meaning to give. -/
inductive Refusal where
  /-- Raised by `exec` for an instruction that has no meaning yet. Safe. -/
  | notModelled (mnemonic : String)
  /-- Raised by `step` when what an agent issued is no instruction: operands the operation does not have, or bytes that
  are no frame of the stated direction (30_encoding.md R60, R73, R74). Safe. -/
  | undecodable (e : DecodeError)
  deriving DecidableEq, Repr

/-- The state after reset and at power-on: `TXI = 8` and `RXI = 0` (10_state.md R32, 70_reset_and_hazards.md R201).
`TXF`, `ACC` and `RXF` are unspecified by the spec: the model names zero (DESIGN CHOICE, assumption log 2). Nothing has
been issued, emitted or answered (assumption log 5). -/
def State.reset : State where
  txf := Vector.replicate 8 0
  txi := 8
  acc := 0
  rxf := Vector.replicate 8 0
  rxi := 0
  result := .nothing
  emitted := []
  calls := []
  delivered := []
  writeAnswers := []
  readAnswers := []
  blocked := []
  issued := []
  draws := 0

end Sys2Proof.Machine
end

