-- ==== Sys2Proof/Machine/Flags.lean ====
section
/-! DEFINITION. The two status outputs. The codec has no other flag (10_state.md R26). -/

namespace Sys2Proof.Machine

/-- `TXV`, "transmit valid": 1 when `TXI < 8` (10_state.md R26). -/
def txv (s : State) : Bool := decide (s.txi.val < 8)

/-- `RXC`, "receive complete": 1 when `RXI = 8` (10_state.md R26). -/
def rxc (s : State) : Bool := decide (s.rxi.val = 8)

end Sys2Proof.Machine
end

