-- ==== Sys2Proof/Machine/Operands.lean ====
section
/-! DEFINITION. The operand forms: what an operation reads its operands from and where a command puts its own. -/

namespace Sys2Proof.Machine

/-- The parameter byte a command leaves unused: zero (30_encoding.md R66). -/
def unusedParameter : Byte := 0

/-- The byte `TXF[TXI]`, if `TXI < 8`: the only read `TXPOP` makes (20_memory.md R46, 41_serializer.md R113). -/
def nextTxByte (s : State) : Option Byte :=
  if h : s.txi.val < 8 then some (s.txf[s.txi.val]'h) else none

/-- The bytes `TXF[TXI]` to `TXF[7]`; none when `TXI = 8` (41_serializer.md R114). -/
def remainingTxBytes (s : State) : List Byte := (serialize s.txf).drop s.txi.val

/-- The whole received frame, once `RXI = 8`; `ShortFrame` before that (42_deserializer.md R134). -/
def receivedFrame (s : State) : Except ErrorKind Frame :=
  if s.rxi.val = 8 then .ok (parseResponse s.rxf) else .error .shortFrame

/-- The status byte `RXF[2]`, once `RXI = 8`; `ShortFrame` before that, even when byte 2 has arrived
(42_deserializer.md R135). -/
def receivedStatus (s : State) : Except ErrorKind Byte :=
  if s.rxi.val = 8 then .ok s.rxf[2] else .error .shortFrame

/-- How the transport answers the next `TWrite`: as the state lists, else a free value
(93_implementation_defined.md U10; assumption log 4). -/
def writeAnswer (s : State) : WriteAnswer :=
  match s.writeAnswers with
  | a :: _ => a
  | [] => Config.freeWriteAnswer s.draws

/-- How the transport answers the next `TRead`: as the state lists, else a free value
(93_implementation_defined.md U10; assumption log 4). -/
def readAnswer (s : State) : ReadAnswer :=
  match s.readAnswers with
  | a :: _ => a
  | [] => Config.freeReadAnswer s.draws

/-- What of `bytes` reaches the module: all of it on success, some prefix otherwise (20_memory.md R49; U11). -/
def deliveredPart (o : WriteOutcome) (bytes : List Byte) : List Byte :=
  match o with
  | .sent => bytes
  | .failed n => bytes.take n
  | .never n => bytes.take n

/-- What the host gets from a `TWrite` that ends so; nothing yet if it never returns (43_commands.md R150,
70_reset_and_hazards.md R210). -/
def writeResult (o : WriteOutcome) : Result :=
  match o with
  | .sent => .ok
  | .failed _ => .err .transportError
  | .never _ => .pending

end Sys2Proof.Machine
end

