-- ==== Sys2Proof/Machine/Ops.lean ====
section
/-! DEFINITION. The named updates of the state, and the shared operations over registers and transport that the meanings
are made of. -/

namespace Sys2Proof.Machine

/-! ### One update per field -/

def setTxf (f : Frame) (s : State) : State := { s with txf := f }
def setTxi (i : Index) (s : State) : State := { s with txi := i }
def setAcc (h : Half) (s : State) : State := { s with acc := h }
def setRxf (f : Frame) (s : State) : State := { s with rxf := f }
def setRxi (i : Index) (s : State) : State := { s with rxi := i }
def setResult (r : Result) (s : State) : State := { s with result := r }
def addEmitted (bs : List Byte) (s : State) : State := { s with emitted := s.emitted ++ bs }
def addCall (c : TransportCall) (s : State) : State := { s with calls := s.calls ++ [c] }
def addDelivered (bs : List Byte) (s : State) : State := { s with delivered := s.delivered ++ bs }
def setWriteAnswers (l : List WriteAnswer) (s : State) : State := { s with writeAnswers := l }
def setReadAnswers (l : List ReadAnswer) (s : State) : State := { s with readAnswers := l }
def setBlocked (l : List Issuer) (s : State) : State := { s with blocked := l }
def setIssued (l : List Issued) (s : State) : State := { s with issued := l }
def addDraw (s : State) : State := { s with draws := s.draws + 1 }

/-! ### Errors: the codec's whole exception mechanism -/

/-- `raise E`: the operation ends with the error as its result and all five registers stay as they were. Nothing is
saved, masked or latched and control goes nowhere (00_scope.md R13, 60_exceptions.md R183, R187). There is no return
from an error beside it: nothing is to be restored (60_exceptions.md R188). -/
def raiseError (e : ErrorKind) (s : State) : State := setResult (.raised e) s

/-! ### Checksum generator and transmit side -/

/-- Run the checksum generator: `ACC` is cleared and the five bytes are added, opcode first (40_checksum.md R91). -/
def runChecksum (op p0 p1 p2 p3 : Byte) (s : State) : State := setAcc (sum16 op p0 p1 p2 p3) s

/-- `BUILD`'s writes: the checksum of this very sum goes into `TXF[6]`, and emission restarts at byte 0
(41_serializer.md R112, 40_checksum.md R99). -/
def buildFrame (op p0 p1 p2 p3 : Byte) (s : State) : State :=
  let s := runChecksum op p0 p1 p2 p3 s
  setTxi 0 (setTxf (requestLayout op p0 p1 p2 p3 (lowByte s.acc)) s)

/-- `TXPOP`'s writes: `TXI` advances past the byte emitted; nothing changes when there is none (41_serializer.md R113). -/
def advanceTx (s : State) : State :=
  if h : s.txi.val < 8 then
    addEmitted [s.txf[s.txi.val]'h] (setTxi ⟨s.txi.val + 1, by omega⟩ s)
  else s

/-- `SER`'s writes: every remaining byte is emitted and `TXI` becomes 8 (41_serializer.md R114). -/
def finishTx (s : State) : State := setTxi 8 (addEmitted (remainingTxBytes s) s)

/-! ### Receive side -/

/-- `RXCLR`'s write: `RXF` keeps its bits (42_deserializer.md R132). -/
def clearRx (s : State) : State := setRxi 0 s

/-- One received byte: stored at `RXF[RXI]`, or discarded when the register is full (42_deserializer.md R133). -/
def pushRx (b : Byte) (s : State) : State :=
  if h : s.rxi.val < 8 then
    setRxi ⟨s.rxi.val + 1, by omega⟩ (setRxf (s.rxf.set s.rxi.val b h) s)
  else s

/-- Received bytes in the order they arrive (20_memory.md R43, R50). -/
def pushAllRx (bs : List Byte) (s : State) : State := bs.foldl (fun s b => pushRx b s) s

/-! ### Transport primitives -/

/-- The answer just given to a `TWrite` is used up. -/
def dropWriteAnswer (s : State) : State :=
  match s.writeAnswers with
  | _ :: rest => setWriteAnswers rest s
  | [] => addDraw s

/-- The answer just given to a `TRead` is used up. -/
def dropReadAnswer (s : State) : State :=
  match s.readAnswers with
  | _ :: rest => setReadAnswers rest s
  | [] => addDraw s

/-- `TWrite(bytes)`: the call, what of the bytes reaches the module, and the `RXPUSH` of every byte that arrives while
the host waits (43_commands.md R150, R168; 20_memory.md R48, R49). -/
def transportWrite (bytes : List Byte) (s : State) : State :=
  pushAllRx (writeAnswer s).arrived
    (dropWriteAnswer (addDelivered (deliveredPart (writeAnswer s).outcome bytes) (addCall (.write bytes) s)))

/-- `TRead(8, timeout)`: the call, and the `RXPUSH` of every byte that arrives while the host waits
(43_commands.md R150, 20_memory.md R50). -/
def transportRead (t : Timeout) (s : State) : State :=
  pushAllRx (readAnswer s).arrived (dropReadAnswer (addCall (.read 8 t) s))

/-! ### The two command templates -/

/-- `BUILD op, a, 00, 00, 00`, then `SER`, then one `TWrite` of the bytes `SER` gave (43_commands.md R151, R152). -/
def sendRequest (op a : Byte) (s : State) : State :=
  let s := buildFrame op a unusedParameter unusedParameter unusedParameter s
  transportWrite (remainingTxBytes s) (finishTx s)

/-- `SendOnly(op, a)`: one write, no read (43_commands.md R151). DESIGN CHOICE (assumption log 9): one step, so no other
host's operation and no `RESET` of the platform falls between its operations. -/
def sendOnly (op a : Byte) (s : State) : State :=
  setResult (writeResult (writeAnswer s).outcome) (sendRequest op a s)

/-- The end of `SendRecv`, after a successful write: one read of eight bytes, then the status byte
(43_commands.md R152). The read has succeeded exactly when it returns with `RXC = 1` (R150), so the status read cannot
raise there. -/
def receiveStatus (t : Timeout) (s : State) : State :=
  let u := transportRead t s
  if (readAnswer s).returns then
    if rxc u then
      match receivedStatus u with
      | .ok v => setResult (.okByte v) u
      | .error e => setResult (.err e) u
    else setResult (.err .transportError) u
  else setResult .pending u

/-- `SendRecv(op, a, timeout)`: `RXCLR` before the request leaves, one write, and one read only if the write succeeded
(43_commands.md R152, R166; 70_reset_and_hazards.md R206). DESIGN CHOICE (assumption log 9): one step, so no other host's
operation and no `RESET` of the platform falls between its operations, though 70_reset_and_hazards.md R200 allows one. -/
def sendRecv (op a : Byte) (t : Timeout) (s : State) : State :=
  match (writeAnswer s).outcome with
  | .sent => receiveStatus t (sendRequest op a (clearRx s))
  | .failed _ => setResult (.err .transportError) (sendRequest op a (clearRx s))
  | .never _ => setResult .pending (sendRequest op a (clearRx s))

/-- `RESET`: both sides idle; `TXF`, `ACC` and `RXF` become free values (70_reset_and_hazards.md R200; V1 to V3;
assumption log 3). What the transport and the module hold is not reset (70_reset_and_hazards.md R201). -/
def resetCodec (s : State) : State :=
  addDraw (setTxi 8 (setRxi 0
    (setTxf (Config.freeTxf s.draws) (setAcc (Config.freeAcc s.draws) (setRxf (Config.freeRxf s.draws) s)))))

end Sys2Proof.Machine
end

