-- ==== Sys2Proof/Machine/Checksum.lean ====
section
/-! DEFINITION. The meaning of CSUM (40_checksum.md). -/

namespace Sys2Proof.Machine

/-- `CSUM`: writes `ACC`, returns `ACC[7:0]` (40_checksum.md R93). -/
def execCsum (op p0 p1 p2 p3 : Byte) (s : State) : Host.Outcome State Fault Refusal :=
  let s := runChecksum op p0 p1 p2 p3 s
  .next (setResult (.byte (lowByte s.acc)) s)

end Sys2Proof.Machine
end

