-- ==== Sys2Proof/Machine/Commands.lean ====
section
/-! DEFINITION. The meanings of the eleven host commands (43_commands.md), each one of the two templates with its opcode. -/

namespace Sys2Proof.Machine

/-- `CMD_OPEN` (43_commands.md R153). -/
def execCmdOpen (s : State) : Host.Outcome State Fault Refusal :=
  .next (sendOnly Config.vocab.opOpen unusedParameter s)

/-- `CMD_CLOSE` (43_commands.md R154). -/
def execCmdClose (s : State) : Host.Outcome State Fault Refusal :=
  .next (sendOnly Config.vocab.opClose unusedParameter s)

/-- `CMD_LED(state)`: the operand is sent as given (43_commands.md R155). -/
def execCmdLed (state : Byte) (s : State) : Host.Outcome State Fault Refusal :=
  .next (sendOnly Config.vocab.opLed state s)

/-- `CMD_IS_PRESSED(timeout)`: the raw status byte, no boolean (43_commands.md R156; 90_conflicts.md C5). -/
def execCmdIsPressed (timeout : Timeout) (s : State) : Host.Outcome State Fault Refusal :=
  .next (sendRecv Config.vocab.opIsPressed unusedParameter timeout s)

/-- `CMD_ENROLL(slot)`: `Ok()` means only that the request was written (43_commands.md R157). -/
def execCmdEnroll (slot : Byte) (s : State) : Host.Outcome State Fault Refusal :=
  .next (sendOnly Config.vocab.opEnroll slot s)

/-- `CMD_DELETE_ONE(slot)` (43_commands.md R158). -/
def execCmdDeleteOne (slot : Byte) (s : State) : Host.Outcome State Fault Refusal :=
  .next (sendOnly Config.vocab.opDeleteOne slot s)

/-- `CMD_DELETE_ALL` (43_commands.md R159). -/
def execCmdDeleteAll (s : State) : Host.Outcome State Fault Refusal :=
  .next (sendOnly Config.vocab.opDeleteAll unusedParameter s)

/-- `CMD_USER_COUNT(timeout)` (43_commands.md R160). -/
def execCmdUserCount (timeout : Timeout) (s : State) : Host.Outcome State Fault Refusal :=
  .next (sendRecv Config.vocab.opUserCount unusedParameter timeout s)

/-- `CMD_IDENTIFY(timeout)` (43_commands.md R161). -/
def execCmdIdentify (timeout : Timeout) (s : State) : Host.Outcome State Fault Refusal :=
  .next (sendRecv Config.vocab.opIdentify unusedParameter timeout s)

/-- `CMD_LAST_ID(timeout)` (43_commands.md R162). -/
def execCmdLastId (timeout : Timeout) (s : State) : Host.Outcome State Fault Refusal :=
  .next (sendRecv Config.vocab.opLastId unusedParameter timeout s)

/-- `CMD_CANCEL_ENROLL` (43_commands.md R163). -/
def execCmdCancelEnroll (s : State) : Host.Outcome State Fault Refusal :=
  .next (sendOnly Config.vocab.opCancelEnroll unusedParameter s)

end Sys2Proof.Machine
end

