-- ==== Sys2Proof/Machine/Deserializer.lean ====
section
/-! DEFINITION. The meanings of the receive side: RXCLR, RXPUSH, PARSE, RDSTAT (42_deserializer.md). -/

namespace Sys2Proof.Machine

/-- `RXCLR` (42_deserializer.md R132). -/
def execRxclr (s : State) : Host.Outcome State Fault Refusal :=
  .next (setResult .nothing (clearRx s))

/-- `RXPUSH b` (42_deserializer.md R133). -/
def execRxpush (b : Byte) (s : State) : Host.Outcome State Fault Refusal :=
  .next (setResult .nothing (pushRx b s))

/-- `PARSE`: the received frame, which stays, or `ShortFrame` (42_deserializer.md R134). -/
def execParse (s : State) : Host.Outcome State Fault Refusal :=
  match receivedFrame s with
  | .ok f => .next (setResult (.frame f) s)
  | .error e => .next (raiseError e s)

/-- `RDSTAT`: the status byte, raw, or `ShortFrame` (42_deserializer.md R135). -/
def execRdstat (s : State) : Host.Outcome State Fault Refusal :=
  match receivedStatus s with
  | .ok v => .next (setResult (.byte v) s)
  | .error e => .next (raiseError e s)

end Sys2Proof.Machine
end

