-- ==== Sys2Proof/Machine/Frames.lean ====
section
/-! DEFINITION. The meanings of the two frame rows of the table, REQUEST and RESPONSE: pure functions, no register is written (00_scope.md R14). -/

namespace Sys2Proof.Machine

/-- `REQUEST`: `BuildRequest(op, [p0, p1, p2, p3])` (41_serializer.md R110; assumption log 8). -/
def execRequest (op p0 p1 p2 p3 : Byte) (s : State) : Host.Outcome State Fault Refusal :=
  .next (setResult (.frame (buildRequest op p0 p1 p2 p3)) s)

/-- `RESPONSE`: `ParseResponse` of the eight bytes and `StatusOf` of the frame (42_deserializer.md R130, R131;
assumption log 8). -/
def execResponse (b0 b1 b2 b3 b4 b5 b6 b7 : Byte) (s : State) : Host.Outcome State Fault Refusal :=
  .next (setResult
    (.response (parseResponse #v[b0, b1, b2, b3, b4, b5, b6, b7])
      (statusOf (parseResponse #v[b0, b1, b2, b3, b4, b5, b6, b7]))) s)

end Sys2Proof.Machine
end

