-- ==== Sys2Proof/Machine/Reset.lean ====
section
/-! DEFINITION. The meaning of RESET (70_reset_and_hazards.md). -/

namespace Sys2Proof.Machine

/-- `RESET` (70_reset_and_hazards.md R200). -/
def execReset (s : State) : Host.Outcome State Fault Refusal :=
  .next (setResult .nothing (resetCodec s))

end Sys2Proof.Machine
end

