-- ==== Sys2Proof/Machine/Serializer.lean ====
section
/-! DEFINITION. The meanings of the transmit side: BUILD, TXPOP, SER (41_serializer.md). -/

namespace Sys2Proof.Machine

/-- `BUILD` (41_serializer.md R112). -/
def execBuild (op p0 p1 p2 p3 : Byte) (s : State) : Host.Outcome State Fault Refusal :=
  .next (setResult .nothing (buildFrame op p0 p1 p2 p3 s))

/-- `TXPOP`: `Some` of the next byte, or `None`, which is no error (41_serializer.md R113). -/
def execTxpop (s : State) : Host.Outcome State Fault Refusal :=
  .next (setResult (.popped (nextTxByte s)) (advanceTx s))

/-- `SER`: the remaining bytes, possibly none (41_serializer.md R114). -/
def execSer (s : State) : Host.Outcome State Fault Refusal :=
  .next (setResult (.bytes (remainingTxBytes s)) (finishTx s))

end Sys2Proof.Machine
end

