-- ==== Sys2Proof/Machine/Dispatch.lean ====
section
/-! DEFINITION. One arm per instruction. -/

namespace Sys2Proof.Machine

def exec (i : Instr) (s : State) : Host.Outcome State Fault Refusal :=
  match i with
  | .cmdOpen => Sys2Proof.Machine.execCmdOpen s
  | .cmdClose => Sys2Proof.Machine.execCmdClose s
  | .cmdLed state => Sys2Proof.Machine.execCmdLed state s
  | .cmdIsPressed timeout => Sys2Proof.Machine.execCmdIsPressed timeout s
  | .cmdEnroll slot => Sys2Proof.Machine.execCmdEnroll slot s
  | .cmdDeleteOne slot => Sys2Proof.Machine.execCmdDeleteOne slot s
  | .cmdDeleteAll => Sys2Proof.Machine.execCmdDeleteAll s
  | .cmdUserCount timeout => Sys2Proof.Machine.execCmdUserCount timeout s
  | .cmdIdentify timeout => Sys2Proof.Machine.execCmdIdentify timeout s
  | .cmdLastId timeout => Sys2Proof.Machine.execCmdLastId timeout s
  | .cmdCancelEnroll => Sys2Proof.Machine.execCmdCancelEnroll s
  | .request op p0 p1 p2 p3 => Sys2Proof.Machine.execRequest op p0 p1 p2 p3 s
  | .response b0 b1 b2 b3 b4 b5 b6 b7 => Sys2Proof.Machine.execResponse b0 b1 b2 b3 b4 b5 b6 b7 s
  | .csum op p0 p1 p2 p3 => Sys2Proof.Machine.execCsum op p0 p1 p2 p3 s
  | .build op p0 p1 p2 p3 => Sys2Proof.Machine.execBuild op p0 p1 p2 p3 s
  | .txpop => Sys2Proof.Machine.execTxpop s
  | .ser => Sys2Proof.Machine.execSer s
  | .rxclr => Sys2Proof.Machine.execRxclr s
  | .rxpush b => Sys2Proof.Machine.execRxpush b s
  | .parse => Sys2Proof.Machine.execParse s
  | .rdstat => Sys2Proof.Machine.execRdstat s
  | .reset => Sys2Proof.Machine.execReset s

end Sys2Proof.Machine
end

