-- ==== Sys2Proof/Machine/Transport.lean ====
section
/-! DEFINITION. The two transport primitives when the host calls them itself, outside a command (43_commands.md R150, 00_scope.md R10). -/

namespace Sys2Proof.Machine

/-- `TWrite(bytes)` issued by the host by hand (43_commands.md R150). DESIGN CHOICE (assumption log 17): any bytes, where
the spec's driver hands over only the eight bytes `SER` returned, so what is delivered need be no frame that a `BUILD`
computed. -/
def execTWrite (bytes : List Byte) (s : State) : Host.Outcome State Fault Refusal :=
  .next (setResult (writeResult (writeAnswer s).outcome) (transportWrite bytes s))

/-- `TRead(8, timeout)` issued by the host by hand: if it returns, `Ok()` exactly when the receive frame register has
filled before the transport gave up (43_commands.md R150). -/
def execTRead (t : Timeout) (s : State) : Host.Outcome State Fault Refusal :=
  let u := transportRead t s
  if (readAnswer s).returns then
    if rxc u then .next (setResult .ok u) else .next (setResult (.err .transportError) u)
  else .next (setResult .pending u)

end Sys2Proof.Machine
end

