-- ==== Sys2Proof/Machine/Perform.lean ====
section
/-! DEFINITION. Performing one event that an agent has issued. -/

namespace Sys2Proof.Machine

/-- Perform one event, whole (20_memory.md R47). What decodes to no instruction is refused by name. -/
def performEvent (e : Event) (s : State) : Host.Outcome State Fault Refusal :=
  match e with
  | .issue c =>
    match decode Config.vocab c with
    | .instr i => exec i s
    | .rejected why => .refused (.undecodable why)
  | .twrite bytes => execTWrite bytes s
  | .tread t => execTRead t s

/-- An agent whose transport call has not returned is blocked from then on (70_reset_and_hazards.md R210). -/
def noteBlocked (who : Issuer) (s : State) : State :=
  if s.result = .pending then setBlocked (s.blocked ++ [who]) s else s

/-- Perform what an agent has issued. An agent inside a call that does not return issues nothing more
(70_reset_and_hazards.md R210): what is listed for it after that never happens (assumption log 18). -/
def performIssued (e : Issued) (s : State) : Host.Outcome State Fault Refusal :=
  if e.issuer ∈ s.blocked then .next s
  else
    match performEvent e.event s with
    | .next t => .next (noteBlocked e.issuer t)
    | .fault f => .fault f
    | .refused r => .refused r

end Sys2Proof.Machine
end

