-- ==== Sys2Proof/Machine/Step.lean ====
section
/-! DEFINITION. One step of the machine: the next thing an agent has issued is performed. -/

namespace Sys2Proof.Machine

/-- One step: take the next event and perform it. With nothing issued nothing happens, since the codec never acts on its
own (00_scope.md R10, 10_state.md R27, 70_reset_and_hazards.md R214). -/
def step (s : State) : Host.Outcome State Fault Refusal :=
  match s.issued with
  | [] => .next s
  | e :: rest => performIssued e (setIssued rest s)

/-- `s` with the instruction of a table word issued next, ahead of everything else, by an agent that is not blocked
(assumption log 5). -/
def State.withFetchWord (s : State) (nbits w : Nat) : State :=
  setBlocked [] (setIssued (⟨tableIssuer nbits w, .issue (tableCode nbits w)⟩ :: s.issued) s)

end Sys2Proof.Machine
end

