-- ==== Sys2Proof/WellFormed.lean ====
section
/-! DEFINITION. Which instructions have an encoding that names them and no other instruction. -/

namespace Sys2Proof

/-- The command of an instruction, with its operand byte, if it is one of the eleven (30_encoding.md R67). -/
def commandOf : Instr → Option (Command × Byte)
  | .cmdOpen => some (.openModule, 0)
  | .cmdClose => some (.closeModule, 0)
  | .cmdLed a => some (.led, a)
  | .cmdIsPressed _ => some (.isPressed, 0)
  | .cmdEnroll a => some (.enroll, a)
  | .cmdDeleteOne a => some (.deleteOne, a)
  | .cmdDeleteAll => some (.deleteAll, 0)
  | .cmdUserCount _ => some (.userCount, 0)
  | .cmdIdentify _ => some (.identify, 0)
  | .cmdLastId _ => some (.lastId, 0)
  | .cmdCancelEnroll => some (.cancelEnroll, 0)
  | .request _ _ _ _ _ => none
  | .response _ _ _ _ _ _ _ _ => none
  | .csum _ _ _ _ _ => none
  | .build _ _ _ _ _ => none
  | .txpop => none
  | .ser => none
  | .rxclr => none
  | .rxpush _ => none
  | .parse => none
  | .rdstat => none
  | .reset => none

/-- A command is well formed when its frame fits its own row of the table and no other command's, which the opcode
values decide (00_scope.md R9; `OpcodesDistinct`, 70_reset_and_hazards.md R217). -/
def commandUnambiguous (v : Vocab) (k : Command) (a : Byte) : Bool :=
  fittingCommands v (commandOpcode v k) a 0 0 0 == [k]

/-- A general request is well formed when its frame is not the frame of exactly one command, whose word it would be
(30_encoding.md R67, R68). -/
def requestIsGeneral (v : Vocab) (op p0 p1 p2 p3 : Byte) : Bool :=
  (fittingCommands v op p0 p1 p2 p3).length != 1

/-- Well-formedness: the encoding names this instruction and no other. Operand ranges are in the types, since every
byte is a legal operand (30_encoding.md R71). `exec` does not ask for it: every instruction runs. -/
def wellFormed (v : Vocab) : Instr → Bool
  | .cmdOpen => commandUnambiguous v .openModule 0
  | .cmdClose => commandUnambiguous v .closeModule 0
  | .cmdLed a => commandUnambiguous v .led a
  | .cmdIsPressed _ => commandUnambiguous v .isPressed 0
  | .cmdEnroll a => commandUnambiguous v .enroll a
  | .cmdDeleteOne a => commandUnambiguous v .deleteOne a
  | .cmdDeleteAll => commandUnambiguous v .deleteAll 0
  | .cmdUserCount _ => commandUnambiguous v .userCount 0
  | .cmdIdentify _ => commandUnambiguous v .identify 0
  | .cmdLastId _ => commandUnambiguous v .lastId 0
  | .cmdCancelEnroll => commandUnambiguous v .cancelEnroll 0
  | .request op p0 p1 p2 p3 => requestIsGeneral v op p0 p1 p2 p3
  | .response _ _ _ _ _ _ _ _ => true
  | .csum _ _ _ _ _ => true
  | .build _ _ _ _ _ => true
  | .txpop => true
  | .ser => true
  | .rxclr => true
  | .rxpush _ => true
  | .parse => true
  | .rdstat => true
  | .reset => true

/-- Which agents issue an instruction (30_encoding.md R74, 60_exceptions.md R190; a response frame comes from the
module through the transport, 00_scope.md R10). -/
def issuers : Instr → List Agent
  | .rxpush _ => [.transport]
  | .response _ _ _ _ _ _ _ _ => [.transport]
  | .reset => [.host, .platform]
  | .cmdOpen => [.host]
  | .cmdClose => [.host]
  | .cmdLed _ => [.host]
  | .cmdIsPressed _ => [.host]
  | .cmdEnroll _ => [.host]
  | .cmdDeleteOne _ => [.host]
  | .cmdDeleteAll => [.host]
  | .cmdUserCount _ => [.host]
  | .cmdIdentify _ => [.host]
  | .cmdLastId _ => [.host]
  | .cmdCancelEnroll => [.host]
  | .request _ _ _ _ _ => [.host]
  | .csum _ _ _ _ _ => [.host]
  | .build _ _ _ _ _ => [.host]
  | .txpop => [.host]
  | .ser => [.host]
  | .rxclr => [.host]
  | .parse => [.host]
  | .rdstat => [.host]

end Sys2Proof
end

