-- ==== Sys2Proof/Safety.lean ====
section
/-! DEFINITION. The terms claims use: runs of instructions and events, the named premises of the spec, the hazards a
safe run avoids, and what is meant by a sound transmit side and by two states that no agent can tell apart. -/

namespace Sys2Proof.Machine

/-! ### Runs -/

/-- The instructions performed one after the other; `none` if one of them stops the machine. -/
def runInstrs : List Instr → State → Option State
  | [], s => some s
  | i :: rest, s =>
    match exec i s with
    | .next t => runInstrs rest t
    | .fault _ => none
    | .refused _ => none

/-- What the agents have issued performed in order; `none` if something stops the machine. -/
def runIssued : List Issued → State → Option State
  | [], s => some s
  | e :: rest, s =>
    match performIssued e s with
    | .next t => runIssued rest t
    | .fault _ => none
    | .refused _ => none

/-! ### Hazards (70_reset_and_hazards.md) -/

/-- Whether an instruction builds a frame or resets the transmit side: `BUILD`, `RESET`, and every command, since each
begins with a `BUILD` (43_commands.md R151, R152). -/
def restartsTx : Instr → Bool
  | .cmdOpen => true
  | .cmdClose => true
  | .cmdLed _ => true
  | .cmdIsPressed _ => true
  | .cmdEnroll _ => true
  | .cmdDeleteOne _ => true
  | .cmdDeleteAll => true
  | .cmdUserCount _ => true
  | .cmdIdentify _ => true
  | .cmdLastId _ => true
  | .cmdCancelEnroll => true
  | .request _ _ _ _ _ => false
  | .response _ _ _ _ _ _ _ _ => false
  | .csum _ _ _ _ _ => false
  | .build _ _ _ _ _ => true
  | .txpop => false
  | .ser => false
  | .rxclr => false
  | .rxpush _ => false
  | .parse => false
  | .rdstat => false
  | .reset => true

/-- The software does not rebuild or reset a frame that is partly sent (70_reset_and_hazards.md R205). -/
def hazardFree (i : Instr) (s : State) : Bool :=
  !(restartsTx i && decide (0 < s.txi.val) && decide (s.txi.val < 8))

/-- A run in which no instruction is a hazard; `none` otherwise. -/
def runHazardFree : List Instr → State → Option State
  | [], s => some s
  | i :: rest, s =>
    if hazardFree i s then
      match exec i s with
      | .next t => runHazardFree rest t
      | .fault _ => none
      | .refused _ => none
    else none

/-- The next step is safe for what the codec emits: what is issued next, if anything, is an instruction and no hazard, or a
transport call, or comes from an agent that is blocked. It says nothing of the bytes that a `TWrite` issued by hand hands
over, which the model leaves free (assumption log 17). -/
def safeStep (s : State) : Bool :=
  match s.issued with
  | [] => true
  | e :: _ =>
    decide (e.issuer ∈ s.blocked) ||
      match e.event with
      | .twrite _ => true
      | .tread _ => true
      | .issue c =>
        match decode Config.vocab c with
        | .instr i => hazardFree i s
        | .rejected _ => false

/-! ### Named premises (70_reset_and_hazards.md R217) -/

/-- The `TWrite` of the next command returns. -/
def writeReturns (s : State) : Bool :=
  match (writeAnswer s).outcome with
  | .sent => true
  | .failed _ => true
  | .never _ => false

/-- The transport's answer to the read that a response-bearing command issued next makes after its write. -/
def commandReadAnswer (s : State) : ReadAnswer := readAnswer (dropWriteAnswer s)

/-- The bytes the transport pushes between the `RXCLR` of a response-bearing command issued next and the end of its
read. -/
def commandArrivals (s : State) : List Byte := (writeAnswer s).arrived ++ (commandReadAnswer s).arrived

/-- `TransportFair`, of the transport calls of the next command: each returns one of its outcomes
(70_reset_and_hazards.md R215). -/
def transportFair (s : State) : Bool := writeReturns s && (commandReadAnswer s).returns

/-- The byte an event pushes into the receive side. -/
def pushOf : Event → Option Byte
  | .issue (.named .rxpush [b] none) => some b
  | .issue (.named _ _ _) => none
  | .issue (.frame _ _ _) => none
  | .twrite _ => none
  | .tread _ => none

/-- `ExclusiveUse`, of what is issued while a command of `caller` runs: no other host issues any codec operation or
transport call (70_reset_and_hazards.md R209). -/
def exclusiveUse (caller : Nat) (es : List Issued) : Bool :=
  es.all fun e =>
    match e.issuer with
    | .host c => c == caller
    | .transport => true
    | .platform => true

/-- Beside the hosts, only the transport acts, and it only pushes bytes: the platform does not reset the codec
(00_scope.md R10, 92_eei_decisions.md D2; 43_commands.md R168, "no other agent using the codec"). `ExclusiveUse` bars only
other hosts, while 70_reset_and_hazards.md R200 lets the platform reset between any two operations, so a claim takes this
as a premise of its own (assumption log 9). -/
def othersOnlyPush (es : List Issued) : Bool :=
  es.all fun e =>
    match e.issuer with
    | .host _ => true
    | .transport => (pushOf e.event).isSome
    | .platform => false

/-- What `caller` itself issues, in order. -/
def ownEvents (caller : Nat) (es : List Issued) : List Event :=
  (es.filter fun e => e.issuer == .host caller).map (·.event)

/-- The bytes pushed after the first `RXCLR` of `caller`, in order. -/
def bytesAfterClear (caller : Nat) : List Issued → List Byte
  | [] => []
  | e :: es =>
    if e = ⟨.host caller, .issue (encodeNamed .rxclr)⟩ then es.filterMap fun x => pushOf x.event
    else bytesAfterClear caller es

/-- `CleanEntry`. -/
def cleanEntry (s : State) : Bool := s.txi.val == 8 || s.txi.val == 0

/-- `QuietLink`, of a response-bearing command issued next: what is pushed between its `RXCLR` and the return of its
`TRead` are bytes of the module's response to this request, in order, and nothing else; all of them, or as many as came
before the read gave up. DESIGN CHOICE (assumption log 20): they are the module's own bytes, none damaged and none lost
among them, so that with all eight of them `ResponseIsModules` follows. -/
def quietLink (response : Frame) (s : State) : Bool := (commandArrivals s).isPrefixOf (serialize response)

/-- `ResponseWellFormed`, of the response held in `RXF`. -/
def responseWellFormed (s : State) : Bool := markersOK s.rxf && checksumOK s.rxf

/-- `ResponseIsModules`: what `RXF` holds is the frame the module sent. -/
def responseIsModules (sent : Frame) (s : State) : Bool := s.rxf == sent

/-- `OpcodesDistinct`, for the opcodes. -/
def opcodesDistinct (v : Vocab) : Bool := decide ((commands.map (commandOpcode v)).Nodup)

/-- `OpcodesDistinct`, for the values of the fifteen AckCode names (assumption log 19). -/
def acksDistinct (v : Vocab) : Bool := decide ((ackNames.map (ackValue v)).Nodup)

/-! ### A sound transmit side -/

/-- The frame is a request frame: `BuildRequest` of some operands (41_serializer.md R110). -/
def isRequest (f : Frame) : Prop := ∃ op p0 p1 p2 p3 : Byte, f = buildRequest op p0 p1 p2 p3

/-- A frame with bytes left to emit is a request frame (10_state.md R34). -/
def txFrameSound (s : State) : Prop := s.txi.val < 8 → isRequest s.txf

/-- The bytes of the current frame that have been emitted, while it is being emitted (10_state.md R22). -/
def partlySent (s : State) : List Byte := if s.txi.val < 8 then (serialize s.txf).take s.txi.val else []

/-- All bytes ever emitted are whole request frames, followed by what has been sent of the current request frame
(41_serializer.md R118). -/
def wireSound (s : State) : Prop :=
  txFrameSound s ∧
    ∃ frames : List Frame, (∀ f ∈ frames, isRequest f) ∧ s.emitted = frames.flatMap serialize ++ partlySent s

/-- The frame an instruction builds into `TXF`, if it builds one (41_serializer.md R112, 43_commands.md R151, R152). -/
def frameBuiltBy : Instr → Option Frame
  | .cmdOpen => some (buildRequest Config.vocab.opOpen 0 0 0 0)
  | .cmdClose => some (buildRequest Config.vocab.opClose 0 0 0 0)
  | .cmdLed a => some (buildRequest Config.vocab.opLed a 0 0 0)
  | .cmdIsPressed _ => some (buildRequest Config.vocab.opIsPressed 0 0 0 0)
  | .cmdEnroll a => some (buildRequest Config.vocab.opEnroll a 0 0 0)
  | .cmdDeleteOne a => some (buildRequest Config.vocab.opDeleteOne a 0 0 0)
  | .cmdDeleteAll => some (buildRequest Config.vocab.opDeleteAll 0 0 0 0)
  | .cmdUserCount _ => some (buildRequest Config.vocab.opUserCount 0 0 0 0)
  | .cmdIdentify _ => some (buildRequest Config.vocab.opIdentify 0 0 0 0)
  | .cmdLastId _ => some (buildRequest Config.vocab.opLastId 0 0 0 0)
  | .cmdCancelEnroll => some (buildRequest Config.vocab.opCancelEnroll 0 0 0 0)
  | .request _ _ _ _ _ => none
  | .response _ _ _ _ _ _ _ _ => none
  | .csum _ _ _ _ _ => none
  | .build op p0 p1 p2 p3 => some (buildRequest op p0 p1 p2 p3)
  | .txpop => none
  | .ser => none
  | .rxclr => none
  | .rxpush _ => none
  | .parse => none
  | .rdstat => none
  | .reset => none

/-- Whether a frame just built is started by what follows: a `TXPOP` or `SER` comes before the transmit side is restarted
(41_serializer.md R118). -/
def isStarted : List Instr → Bool
  | [] => false
  | i :: rest => i == .txpop || i == .ser || (!restartsTx i && isStarted rest)

/-- The frames of a run that are started, in order: of a command always, since it emits its frame itself, and of a `BUILD`
unless the transmit side is restarted, or the run ends, before a byte of it is emitted (41_serializer.md R118). -/
def startedFrames : List Instr → List Frame
  | [] => []
  | i :: rest =>
    match frameBuiltBy i with
    | some f => if (commandOf i).isSome || isStarted rest then f :: startedFrames rest else startedFrames rest
    | none => startedFrames rest

/-! ### What no agent can see (00_scope.md R15) -/

/-- Two states that differ at most in what no operation can return: `ACC`, the bytes of `TXF` already emitted, the bytes
of `RXF` not yet received. -/
def indistinguishable (s t : State) : Prop :=
  s.txi = t.txi ∧ s.rxi = t.rxi ∧ remainingTxBytes s = remainingTxBytes t ∧
    (serialize s.rxf).take s.rxi.val = (serialize t.rxf).take t.rxi.val ∧ s.result = t.result ∧
    s.emitted = t.emitted ∧ s.calls = t.calls ∧ s.delivered = t.delivered ∧ s.writeAnswers = t.writeAnswers ∧
    s.readAnswers = t.readAnswers ∧ s.blocked = t.blocked ∧ s.issued = t.issued ∧ s.draws = t.draws

/-! ### The receive side over a run -/

/-- Whether an instruction leaves the receive side collecting: anything but `RXCLR`, `RESET` and the four
response-bearing commands, which begin with `RXCLR` (42_deserializer.md R138, 43_commands.md R152). -/
def keepsReceiving : Instr → Bool
  | .cmdOpen => true
  | .cmdClose => true
  | .cmdLed _ => true
  | .cmdIsPressed _ => false
  | .cmdEnroll _ => true
  | .cmdDeleteOne _ => true
  | .cmdDeleteAll => true
  | .cmdUserCount _ => false
  | .cmdIdentify _ => false
  | .cmdLastId _ => false
  | .cmdCancelEnroll => true
  | .request _ _ _ _ _ => true
  | .response _ _ _ _ _ _ _ _ => true
  | .csum _ _ _ _ _ => true
  | .build _ _ _ _ _ => true
  | .txpop => true
  | .ser => true
  | .rxclr => false
  | .rxpush _ => true
  | .parse => true
  | .rdstat => true
  | .reset => false

/-- The bytes pushed into the receive side by an instruction performed in `s`: the byte of an `RXPUSH`, or what the
transport pushes while the host waits in the command's transport calls. -/
def receivedBy (i : Instr) (s : State) : List Byte :=
  match i with
  | .cmdOpen => (writeAnswer s).arrived
  | .cmdClose => (writeAnswer s).arrived
  | .cmdLed _ => (writeAnswer s).arrived
  | .cmdIsPressed _ => responseBytes s
  | .cmdEnroll _ => (writeAnswer s).arrived
  | .cmdDeleteOne _ => (writeAnswer s).arrived
  | .cmdDeleteAll => (writeAnswer s).arrived
  | .cmdUserCount _ => responseBytes s
  | .cmdIdentify _ => responseBytes s
  | .cmdLastId _ => responseBytes s
  | .cmdCancelEnroll => (writeAnswer s).arrived
  | .request _ _ _ _ _ => []
  | .response _ _ _ _ _ _ _ _ => []
  | .csum _ _ _ _ _ => []
  | .build _ _ _ _ _ => []
  | .txpop => []
  | .ser => []
  | .rxclr => []
  | .rxpush b => [b]
  | .parse => []
  | .rdstat => []
  | .reset => []
where
  /-- What a response-bearing command receives: during its write, and during its read if it makes one. -/
  responseBytes (s : State) : List Byte :=
    match (writeAnswer s).outcome with
    | .sent => commandArrivals s
    | .failed _ => (writeAnswer s).arrived
    | .never _ => (writeAnswer s).arrived

/-- The bytes pushed by the instructions of a run, in order. -/
def receivedBytes : List Instr → State → List Byte
  | [], _ => []
  | i :: rest, s =>
    receivedBy i s ++
      match exec i s with
      | .next t => receivedBytes rest t
      | .fault _ => []
      | .refused _ => []

end Sys2Proof.Machine
end

