-- ==== Sys2Proof/Certificates/Slice0/Obligations.lean ====
section
/-! DEFINITION. The statements for the provers. `exec i s = .next t` in a conclusion says that the instruction
completes; `t = …` with a record update of `s` says its frame as well: every field not named is unchanged. -/

open Sys2Proof Sys2Proof.Machine

/-! ### Words used by the statements -/

/-- The integer sum of an opcode byte and four parameter bytes (40_checksum.md R95). -/
def Sys2Proof.Claims.byteSum (op p0 p1 p2 p3 : Byte) : Nat :=
  op.toNat + p0.toNat + p1.toNat + p2.toNat + p3.toNat

/-- The request frame of a command, written out: opcode, operand byte, three zeros, their sum modulo 256
(43_commands.md R153 to R163). -/
def Sys2Proof.Claims.commandFrame (op a : Byte) : List Byte := [0xF5, op, a, 0, 0, 0, op + a, 0xF5]

/-- The seven commands without a response: instruction, opcode, byte placed in parameter 0; `a` is the operand of those
that take one (30_encoding.md R67). -/
def Sys2Proof.Claims.sendOnlyCommands (a : Byte) : List (Instr × Byte × Byte) :=
  [(.cmdOpen, Config.vocab.opOpen, 0), (.cmdClose, Config.vocab.opClose, 0), (.cmdLed a, Config.vocab.opLed, a),
    (.cmdEnroll a, Config.vocab.opEnroll, a), (.cmdDeleteOne a, Config.vocab.opDeleteOne, a),
    (.cmdDeleteAll, Config.vocab.opDeleteAll, 0), (.cmdCancelEnroll, Config.vocab.opCancelEnroll, 0)]

/-- The four response-bearing commands with the caller's timeout: instruction and opcode (30_encoding.md R67). -/
def Sys2Proof.Claims.sendRecvCommands (d : Timeout) : List (Instr × Byte) :=
  [(.cmdIsPressed d, Config.vocab.opIsPressed), (.cmdUserCount d, Config.vocab.opUserCount),
    (.cmdIdentify d, Config.vocab.opIdentify), (.cmdLastId d, Config.vocab.opLastId)]

/-- `TXPOP` until it returns `None`, with the bytes `pushes k` received just before a pop that leaves `k` more allowed:
the popped bytes in order and the state left (41_serializer.md R115). The second argument bounds the number of pops. -/
def Sys2Proof.Claims.popUntilNone (pushes : Nat → List Byte) : Nat → State → Option (List Byte × State)
  | 0, _ => none
  | k + 1, s =>
    match exec .txpop (pushAllRx (pushes k) s) with
    | .next t =>
      match t.result with
      | .popped (some b) => (Sys2Proof.Claims.popUntilNone pushes k t).map fun r => (b :: r.1, r.2)
      | .popped none => some ([], t)
      | _ => none
    | .fault _ => none
    | .refused _ => none

/-- Issuing an instruction by name. -/
def Sys2Proof.Claims.byName (i : Instr) : Event := .issue (encodeNamed i)

/-- The transport's `RXPUSH` of each byte, in order (20_memory.md R43, R48). -/
def Sys2Proof.Claims.pushEvents (bs : List Byte) : List Issued :=
  bs.map fun b => ⟨.transport, Sys2Proof.Claims.byName (.rxpush b)⟩

/-- What caller `c` issues: an instruction by name. -/
def Sys2Proof.Claims.byHost (c : Nat) (i : Instr) : Issued := ⟨.host c, Sys2Proof.Claims.byName i⟩

/-- The transmit-side operations of 41_serializer.md R117. -/
def Sys2Proof.Claims.isTxOperation : Instr → Bool
  | .cmdOpen => false
  | .cmdClose => false
  | .cmdLed _ => false
  | .cmdIsPressed _ => false
  | .cmdEnroll _ => false
  | .cmdDeleteOne _ => false
  | .cmdDeleteAll => false
  | .cmdUserCount _ => false
  | .cmdIdentify _ => false
  | .cmdLastId _ => false
  | .cmdCancelEnroll => false
  | .request _ _ _ _ _ => false
  | .response _ _ _ _ _ _ _ _ => false
  | .csum _ _ _ _ _ => true
  | .build _ _ _ _ _ => true
  | .txpop => true
  | .ser => true
  | .rxclr => false
  | .rxpush _ => false
  | .parse => false
  | .rdstat => false
  | .reset => false

/-- The receive-side operations of 41_serializer.md R117. -/
def Sys2Proof.Claims.isRxOperation : Instr → Bool
  | .cmdOpen => false
  | .cmdClose => false
  | .cmdLed _ => false
  | .cmdIsPressed _ => false
  | .cmdEnroll _ => false
  | .cmdDeleteOne _ => false
  | .cmdDeleteAll => false
  | .cmdUserCount _ => false
  | .cmdIdentify _ => false
  | .cmdLastId _ => false
  | .cmdCancelEnroll => false
  | .request _ _ _ _ _ => false
  | .response _ _ _ _ _ _ _ _ => false
  | .csum _ _ _ _ _ => false
  | .build _ _ _ _ _ => false
  | .txpop => false
  | .ser => false
  | .rxclr => true
  | .rxpush _ => true
  | .parse => true
  | .rdstat => true
  | .reset => false

open Sys2Proof.Claims

/-! ### Reset -/

/-- 10_state.md R32 and 70_reset_and_hazards.md R200: at power-on and after `RESET` both sides are idle; the contents of
`TXF`, `ACC` and `RXF` are left open. -/
def Obligations.ResetLeavesBothSidesIdle : Prop :=
  (State.reset.txi.val = 8 ∧ State.reset.rxi.val = 0 ∧ txv State.reset = false ∧ rxc State.reset = false) ∧
  ∀ s : State, ∃ t : State, exec .reset s = .next t ∧
    t.txi.val = 8 ∧ t.rxi.val = 0 ∧ txv t = false ∧ rxc t = false ∧ t.result = .nothing ∧
    t.emitted = s.emitted ∧ t.calls = s.calls ∧ t.delivered = s.delivered ∧
    t.writeAnswers = s.writeAnswers ∧ t.readAnswers = s.readAnswers ∧ t.blocked = s.blocked ∧ t.issued = s.issued

/-- 70_reset_and_hazards.md R200, example and vectors Z1 to Z4: what the four reading operations answer after `RESET`. -/
def Obligations.AfterResetNothingCanBeRead : Prop :=
  ∀ s t : State, exec .reset s = .next t →
    exec .txpop t = .next { t with result := .popped none } ∧
    exec .ser t = .next { t with result := .bytes [] } ∧
    exec .parse t = .next { t with result := .raised .shortFrame } ∧
    exec .rdstat t = .next { t with result := .raised .shortFrame }

/-! ### Checksum generator -/

/-- 40_checksum.md R90 and R93: `CSUM` leaves the 16-bit sum in `ACC`, returns it modulo 256 and writes nothing else. -/
def Obligations.CsumReturnsSumModulo256 : Prop :=
  ∀ (op p0 p1 p2 p3 : Byte) (s : State),
    exec (.csum op p0 p1 p2 p3) s = .next { s with
      acc := BitVec.ofNat 16 (byteSum op p0 p1 p2 p3)
      result := .byte (BitVec.ofNat 8 (byteSum op p0 p1 p2 p3)) } ∧
    (BitVec.ofNat 8 (byteSum op p0 p1 p2 p3)).toNat = byteSum op p0 p1 p2 p3 % 256

/-- 40_checksum.md R95: after `CSUM` or `BUILD` the accumulator is the true integer sum, at most 1275, so bits 15 to 11 are
0 and the carries out of the low byte are 0 to 4. -/
def Obligations.AccumulatorNeverOverflows : Prop :=
  ∀ (op p0 p1 p2 p3 : Byte) (s t : State),
    (exec (.csum op p0 p1 p2 p3) s = .next t ∨ exec (.build op p0 p1 p2 p3) s = .next t) →
      t.acc.toNat = byteSum op p0 p1 p2 p3 ∧ t.acc.toNat ≤ 1275 ∧ t.acc.extractLsb' 11 5 = 0 ∧
        (t.acc.extractLsb' 8 8).toNat ≤ 4

/-- 40_checksum.md R96: accumulating in 16 bits and truncating, in 8 bits with wrap-around, or in the integers modulo 256
gives one result, whatever the order of the bytes. -/
def Obligations.ChecksumFormsAgreeInAnyOrder : Prop :=
  (∀ bs : List Byte,
    lowByte (accumulate bs) = bs.foldl (· + ·) 0 ∧
    (lowByte (accumulate bs)).toNat = (bs.map BitVec.toNat).sum % 256) ∧
  (∀ bs cs : List Byte, bs.Perm cs → accumulate bs = accumulate cs) ∧
  (∀ op p0 p1 p2 p3 q q0 q1 q2 q3 : Byte, [op, p0, p1, p2, p3].Perm [q, q0, q1, q2, q3] →
    checksum op p0 p1 p2 p3 = checksum q q0 q1 q2 q3) ∧
  checksum 0x12 0x34 0x56 0x78 0x9A = 0xAE ∧ checksum 0x9A 0x78 0x56 0x34 0x12 = 0xAE ∧
  sum16 0x12 0x34 0x56 0x78 0x9A = 0x01AE ∧ sum16 0x9A 0x78 0x56 0x34 0x12 = 0x01AE

/-- 40_checksum.md R98: changing exactly one of the five bytes always changes the checksum; two changed bytes may collide. -/
def Obligations.OneChangedByteChangesChecksum : Prop :=
  (∀ op p0 p1 p2 p3 x : Byte,
    (x ≠ op → checksum x p0 p1 p2 p3 ≠ checksum op p0 p1 p2 p3) ∧
    (x ≠ p0 → checksum op x p1 p2 p3 ≠ checksum op p0 p1 p2 p3) ∧
    (x ≠ p1 → checksum op p0 x p2 p3 ≠ checksum op p0 p1 p2 p3) ∧
    (x ≠ p2 → checksum op p0 p1 x p3 ≠ checksum op p0 p1 p2 p3) ∧
    (x ≠ p3 → checksum op p0 p1 p2 x ≠ checksum op p0 p1 p2 p3)) ∧
  checksum 0x2A 4 0 0 0 = 0x2E ∧ checksum 0x2A 3 1 0 0 = 0x2E ∧ checksum 0x2B 3 0 0 0 = 0x2E

/-! ### Transmit side -/

/-- 41_serializer.md R110 and R112: `BUILD` writes the whole request frame, its checksum and the index, from any state. -/
def Obligations.BuildWritesRequestFrame : Prop :=
  ∀ (op p0 p1 p2 p3 : Byte) (s : State), ∃ t : State, exec (.build op p0 p1 p2 p3) s = .next t ∧
    t = { s with
      txf := #v[0xF5, op, p0, p1, p2, p3, BitVec.ofNat 8 (byteSum op p0 p1 p2 p3), 0xF5]
      acc := BitVec.ofNat 16 (byteSum op p0 p1 p2 p3)
      txi := 0
      result := .nothing } ∧
    t.txf = buildRequest op p0 p1 p2 p3 ∧ txv t = true ∧ rxc t = rxc s

/-- 41_serializer.md R113: `TXPOP` returns `TXF[TXI]` and advances `TXI` by one below 8, and at 8 returns `None` and
changes nothing. -/
def Obligations.TxpopEmitsNextByte : Prop :=
  (∀ (s : State) (h : s.txi.val < 8), ∃ t : State, exec .txpop s = .next t ∧
    t.txi.val = s.txi.val + 1 ∧
    t = { s with
      txi := t.txi
      emitted := s.emitted ++ [s.txf[s.txi.val]]
      result := .popped (some s.txf[s.txi.val]) } ∧
    (txv t = false ↔ s.txi.val = 7)) ∧
  (∀ s : State, s.txi.val = 8 → exec .txpop s = .next { s with result := .popped none })

/-- 41_serializer.md R114: `SER` returns the bytes from `TXI` to 7 in order and leaves `TXI = 8`; right after `BUILD` that
is the whole frame. -/
def Obligations.SerEmitsRemainingBytes : Prop :=
  (∀ s : State, ∃ bs : List Byte, exec .ser s = .next { s with
      txi := 8
      emitted := s.emitted ++ bs
      result := .bytes bs } ∧
    bs.length = 8 - s.txi.val ∧
    ∀ k (h : s.txi.val + k < 8), bs[k]? = some s.txf[s.txi.val + k]) ∧
  (∀ (op p0 p1 p2 p3 : Byte) (s t : State), exec (.build op p0 p1 p2 p3) s = .next t →
    ∃ u : State, exec .ser t = .next u ∧ u.result = .bytes (serialize (buildRequest op p0 p1 p2 p3)) ∧ txv u = false)

/-- 41_serializer.md R115: `SER` is `TXPOP` repeated until it returns `None`, bytes concatenated; bytes received among the
pops change nothing of it. -/
def Obligations.SerIsTxpopRepeated : Prop :=
  ∀ s : State, ∃ bs : List Byte,
    exec .ser s = .next { s with txi := 8, emitted := s.emitted ++ bs, result := .bytes bs } ∧
    popUntilNone (fun _ => []) 9 s =
      some (bs, { s with txi := 8, emitted := s.emitted ++ bs, result := .popped none }) ∧
    ∀ pushes : Nat → List Byte, ∃ u : State, popUntilNone pushes 9 s = some (bs, u) ∧
      u.txi.val = 8 ∧ u.txf = s.txf ∧ u.acc = s.acc ∧ u.emitted = s.emitted ++ bs

/-- 41_serializer.md R116: once `TXI = 8` no instruction but `BUILD` makes it smaller, and `BUILD` computes the frame
anew. -/
def Obligations.NoResendWithoutBuild : Prop :=
  ∀ (i : Instr) (s t : State), s.txi.val = 8 → exec i s = .next t → t.txi.val < 8 →
    ∃ op p0 p1 p2 p3 : Byte, i = .build op p0 p1 p2 p3 ∧ t.txf = buildRequest op p0 p1 p2 p3 ∧ t.txi.val = 0

/-- 10_state.md R21 and 40_checksum.md R99: but for `RESET`, which leaves `TXF` open, whatever is written to `TXF` is a
request frame whole, with the checksum of its own bytes. -/
def Obligations.TxfIsWrittenOnlyAsBuiltFrame : Prop :=
  ∀ (i : Instr) (s t : State), exec i s = .next t → i ≠ .reset →
    t.txf = s.txf ∨
    (∃ op p0 p1 p2 p3 : Byte, t.txf = buildRequest op p0 p1 p2 p3 ∧ frameBuiltBy i = some t.txf) ∧
      t.txf[0] = 0xF5 ∧ t.txf[7] = 0xF5 ∧ t.txf[6] = checksum t.txf[1] t.txf[2] t.txf[3] t.txf[4] t.txf[5]

/-- 41_serializer.md R118: in a run from an idle transmit side without hazards, the bytes emitted are whole request frames,
followed by a proper prefix of the last frame built if that one was started and not finished. The frames are exactly those
that were started, so a `BUILD` whose frame was never started contributes nothing; they are frames of the `BUILD`s, in their
order; and every frame built has its markers and its checksum. A command in the run is one step (assumption log 9). -/
def Obligations.WireCarriesWholeFramesInOrder : Prop :=
  ∀ (is : List Instr) (s t : State), s.txi.val = 8 → runHazardFree is s = some t →
    ∃ frames : List Frame,
      t.emitted = s.emitted ++ frames.flatMap serialize ++ partlySent t ∧
      (if 0 < t.txi.val ∧ t.txi.val < 8
        then frames ++ [t.txf] = startedFrames is ∧ (is.filterMap frameBuiltBy).getLast? = some t.txf
        else frames = startedFrames is) ∧
      (startedFrames is).Sublist (is.filterMap frameBuiltBy) ∧
      ∀ f ∈ is.filterMap frameBuiltBy, markersOK f = true ∧ checksumOK f = true

/-! ### Receive side -/

/-- 42_deserializer.md R132: `RXCLR` sets `RXI` to 0 and writes nothing else; nothing can be read after it. -/
def Obligations.RxclrRestartsCollection : Prop :=
  ∀ s : State, ∃ t : State, exec .rxclr s = .next t ∧
    t = { s with rxi := 0, result := .nothing } ∧ rxc t = false ∧
    exec .parse t = .next { t with result := .raised .shortFrame } ∧
    exec .rdstat t = .next { t with result := .raised .shortFrame }

/-- 42_deserializer.md R133: `RXPUSH` stores the byte at `RXF[RXI]` and advances `RXI`; when the register is full the byte
is discarded and nothing changes. -/
def Obligations.RxpushStoresOrDiscards : Prop :=
  ∀ (b : Byte) (s : State),
    (s.rxi.val < 8 → ∃ t : State, exec (.rxpush b) s = .next t ∧
      t.rxi.val = s.rxi.val + 1 ∧
      (∀ k (h : k < 8), t.rxf[k] = if k = s.rxi.val then b else s.rxf[k]) ∧
      t = { s with rxf := t.rxf, rxi := t.rxi, result := .nothing } ∧
      (rxc t = true ↔ s.rxi.val = 7)) ∧
    (s.rxi.val = 8 → exec (.rxpush b) s = .next { s with result := .nothing })

/-- 42_deserializer.md R134: `PARSE` returns the eight received bytes as a frame when `RXI = 8`, raises `ShortFrame` below,
and writes no register in either case. -/
def Obligations.ParseReturnsReceivedFrame : Prop :=
  ∀ s : State,
    (s.rxi.val = 8 → exec .parse s = .next { s with result := .frame s.rxf }) ∧
    (s.rxi.val < 8 → exec .parse s = .next { s with result := .raised .shortFrame })

/-- 42_deserializer.md R135: `RDSTAT` returns `RXF[2]` when `RXI = 8`, the status of the frame `PARSE` returns, and raises
`ShortFrame` below, whichever bytes have arrived. -/
def Obligations.RdstatReturnsStatusByte : Prop :=
  ∀ s : State,
    (s.rxi.val = 8 → exec .rdstat s = .next { s with result := .byte s.rxf[2] } ∧
      ∃ f : Frame, exec .parse s = .next { s with result := .frame f } ∧ statusOf f = s.rxf[2]) ∧
    (s.rxi.val < 8 → exec .rdstat s = .next { s with result := .raised .shortFrame })

/-- 60_exceptions.md R183: `ShortFrame` is raised by `PARSE` and `RDSTAT` while `RXI < 8` and by nothing else, and leaves
everything but the result as it was; no command returns it. -/
def Obligations.ShortFrameOnlyFromReadsAndPrecise : Prop :=
  (∀ (i : Instr) (s t : State), exec i s = .next t →
    (∀ e, t.result = .raised e → (i = .parse ∨ i = .rdstat) ∧ s.rxi.val < 8 ∧ e = .shortFrame ∧
      t = { s with result := .raised .shortFrame }) ∧
    t.result ≠ .err .shortFrame) ∧
  (∀ s : State, s.rxi.val < 8 → ∀ i ∈ [Instr.parse, Instr.rdstat],
    exec i s = .next { s with result := .raised .shortFrame })

/-- 42_deserializer.md R138 and R136: after `RXCLR`, whatever runs that does not clear the receive side again, the first
eight bytes pushed are the frame, `PARSE` and `RDSTAT` return it, and further bytes change nothing; no byte is checked.
That a held frame survives further bytes is the spec's decision D9 (92_eei_decisions.md; assumption log 16). Bytes that
arrive inside a command without a response count as pushed (assumption log 4); a response-bearing command begins with an
`RXCLR` of its own. -/
def Obligations.FirstEightPushedBytesAreTheFrame : Prop :=
  ∀ (s0 s t : State) (is : List Instr), exec .rxclr s0 = .next s → (∀ i ∈ is, keepsReceiving i = true) →
    runInstrs is s = some t →
    t.rxi.val = min 8 (receivedBytes is s).length ∧
    (serialize t.rxf).take t.rxi.val = (receivedBytes is s).take 8 ∧
    ∀ (b0 b1 b2 b3 b4 b5 b6 b7 : Byte) (rest : List Byte),
      receivedBytes is s = b0 :: b1 :: b2 :: b3 :: b4 :: b5 :: b6 :: b7 :: rest →
        t.rxi.val = 8 ∧ t.rxf = #v[b0, b1, b2, b3, b4, b5, b6, b7] ∧
        exec .parse t = .next { t with result := .frame #v[b0, b1, b2, b3, b4, b5, b6, b7] } ∧
        exec .rdstat t = .next { t with result := .byte b2 }

/-- 42_deserializer.md R139: a stream offset by one byte is read from the wrong place and nothing detects it. -/
def Obligations.OffsetStreamIsMisreadSilently : Prop :=
  ∀ (b0 b1 b2 b3 b4 b5 b6 b7 x : Byte) (s : State),
    (∃ t : State, runInstrs [.rxclr, .rxpush b1, .rxpush b2, .rxpush b3, .rxpush b4, .rxpush b5, .rxpush b6, .rxpush b7,
      .rxpush x, .rdstat] s = some t ∧ t.result = .byte (parameter #v[b0, b1, b2, b3, b4, b5, b6, b7] 1)) ∧
    (∃ t : State, runInstrs [.rxclr, .rxpush x, .rxpush b0, .rxpush b1, .rxpush b2, .rxpush b3, .rxpush b4, .rxpush b5,
      .rxpush b6, .rdstat] s = some t ∧ t.rxf = #v[x, b0, b1, b2, b3, b4, b5, b6] ∧
      t.result = .byte (opcode #v[b0, b1, b2, b3, b4, b5, b6, b7]))

/-- 42_deserializer.md R137: serialized request frames parse back to themselves, as functions and through the codec. -/
def Obligations.SerializedFrameRoundTrips : Prop :=
  (∀ (f : Frame) (bytes : Vector Byte 8), bytes.toList = serialize f → parseResponse bytes = f) ∧
  (∀ bytes : Vector Byte 8, serialize (parseResponse bytes) = bytes.toList) ∧
  (∀ (op p0 p1 p2 p3 : Byte) (s : State), ∃ (t u : State) (bytes : List Byte),
    runInstrs [.build op p0 p1 p2 p3, .ser] s = some t ∧ t.result = .bytes bytes ∧
    runInstrs (.rxclr :: bytes.map Instr.rxpush ++ [.parse]) t = some u ∧
    u.result = .frame (buildRequest op p0 p1 p2 p3) ∧
    opcode (buildRequest op p0 p1 p2 p3) = op ∧ parameter (buildRequest op p0 p1 p2 p3) 0 = p0 ∧
    parameter (buildRequest op p0 p1 p2 p3) 1 = p1 ∧ parameter (buildRequest op p0 p1 p2 p3) 2 = p2 ∧
    parameter (buildRequest op p0 p1 p2 p3) 3 = p3)

/-! ### The two sides together -/

/-- 41_serializer.md R117: transmit-side operations leave the receive registers alone, receive-side operations the transmit
registers and `ACC`, and any one of each commute, in final state and in results. -/
def Obligations.TransmitAndReceiveSidesCommute : Prop :=
  ∀ (i j : Instr) (s : State), isTxOperation i = true → isRxOperation j = true →
    ∃ a b c d : State, exec i s = .next a ∧ exec j a = .next b ∧ exec j s = .next c ∧ exec i c = .next d ∧
      a.rxf = s.rxf ∧ a.rxi = s.rxi ∧ c.txf = s.txf ∧ c.txi = s.txi ∧ c.acc = s.acc ∧
      a.result = d.result ∧ b.result = c.result ∧ b = { d with result := b.result }

/-- 41_serializer.md R117 and 42_deserializer.md R133, over the agents of 30_encoding.md R74 and 60_exceptions.md R190: what
the transport issues touches no transmit-side register and no record of what was sent. That a response frame is the
transport's is the model's table of issuers (assumption log 10), that it writes no register the model's reading of its row
(assumption log 8). -/
def Obligations.TransportOperationsLeaveTransmitSideAlone : Prop :=
  ∀ (i : Instr) (s t : State), Agent.transport ∈ issuers i → exec i s = .next t →
    t.txf = s.txf ∧ t.txi = s.txi ∧ t.acc = s.acc ∧ t.emitted = s.emitted ∧ t.calls = s.calls ∧ t.delivered = s.delivered

/-- 10_state.md R26: the two status outputs are functions of the indices and change only with the operations that write
them; a command counts with the bytes that the transport pushes while the host waits in it (assumption log 4). -/
def Obligations.FlagsFollowTheIndices : Prop :=
  (∀ s : State, (txv s = true ↔ s.txi.val < 8) ∧ (rxc s = true ↔ s.rxi.val = 8)) ∧
  ∀ (i : Instr) (s t : State), exec i s = .next t →
    (txv t ≠ txv s → restartsTx i = true ∨ i = .txpop ∨ i = .ser) ∧
    (rxc t ≠ rxc s → (∃ b, i = .rxpush b) ∨ keepsReceiving i = false ∨
      (∃ k a, commandOf i = some (k, a)) ∧ (writeAnswer s).arrived ≠ [])

/-- 40_checksum.md R93, 41_serializer.md R112, 42_deserializer.md R132, R134, R135: `PARSE`, `RDSTAT`, `CSUM`, `BUILD` and
`RXCLR` repeated at once give the same result and state again. For `BUILD` this is immediate repetition only: it restarts
`TXI`, so it is not idempotent on `TXI` once a byte has been emitted in between (20_memory.md R51). -/
def Obligations.ReadsAndClearsAreIdempotent : Prop :=
  ∀ (i : Instr) (s : State),
    (i = .parse ∨ i = .rdstat ∨ i = .rxclr ∨ (∃ op p0 p1 p2 p3, i = .csum op p0 p1 p2 p3) ∨
      ∃ op p0 p1 p2 p3, i = .build op p0 p1 p2 p3) →
    ∃ t : State, exec i s = .next t ∧ exec i t = .next t

/-- 60_exceptions.md R180: every operation is legal in every state; none faults, none is refused. R180 speaks of the codec's
operations; that a command is one step, and the frame rows pure functions, is assumption log 9 and 8. A next state does not
say that a command has returned: if a transport call never does, its result is `pending` (assumption log 4). -/
def Obligations.EveryInstructionRunsInEveryState : Prop :=
  ∀ (i : Instr) (s : State), ∃ t : State, exec i s = .next t

/-! ### The frame rows of the table -/

/-- 41_serializer.md R110: `REQUEST` answers `BuildRequest`, the frame `BUILD` puts into `TXF`, and writes no register
(that the row is the pure function is the model's reading, assumption log 8). -/
def Obligations.RequestAnswersTheBuiltFrame : Prop :=
  ∀ (op p0 p1 p2 p3 : Byte) (s : State), ∃ t : State,
    exec (.request op p0 p1 p2 p3) s = .next { s with
      result := .frame #v[0xF5, op, p0, p1, p2, p3, BitVec.ofNat 8 (byteSum op p0 p1 p2 p3), 0xF5] } ∧
    exec (.build op p0 p1 p2 p3) s = .next t ∧
    exec (.request op p0 p1 p2 p3) s = .next { s with result := .frame t.txf }

/-- 42_deserializer.md R130, R131: `RESPONSE` answers the frame the deserializer would hold after receiving the eight bytes,
and its status byte, and writes no register (assumption log 8). -/
def Obligations.ResponseAnswersTheParsedFrame : Prop :=
  ∀ (b0 b1 b2 b3 b4 b5 b6 b7 : Byte) (s : State), ∃ t u : State,
    exec (.response b0 b1 b2 b3 b4 b5 b6 b7) s = .next { s with
      result := .response #v[b0, b1, b2, b3, b4, b5, b6, b7] b2 } ∧
    runInstrs [.rxclr, .rxpush b0, .rxpush b1, .rxpush b2, .rxpush b3, .rxpush b4, .rxpush b5, .rxpush b6, .rxpush b7,
      .parse] s = some t ∧ t.result = .frame #v[b0, b1, b2, b3, b4, b5, b6, b7] ∧
    exec .rdstat t = .next u ∧ u.result = .byte b2

/-! ### Host commands -/

/-- 43_commands.md R151 and the seven command rules, R168: one write of the command's frame, no read, `Ok()` or
`Err(TransportError)` by the transport's answer, and the receive side as the transport left it. `TransportFair` (R215) is a
premise of the clause on errors; a command as one step is `ExclusiveUse` (assumption log 9). -/
def Obligations.SendOnlyCommandsWriteOneFrame : Prop :=
  ∀ (a : Byte) (s : State) (i : Instr) (op p : Byte), (i, op, p) ∈ sendOnlyCommands a → ∃ t : State,
    exec i s = .next t ∧
    t.txf.toList = commandFrame op p ∧ t.txi.val = 8 ∧ t.acc.toNat = op.toNat + p.toNat ∧
    t.rxf = (pushAllRx (writeAnswer s).arrived s).rxf ∧ t.rxi = (pushAllRx (writeAnswer s).arrived s).rxi ∧
    ((writeAnswer s).arrived = [] → t.rxf = s.rxf ∧ t.rxi = s.rxi) ∧
    t.emitted = s.emitted ++ commandFrame op p ∧
    t.calls = s.calls ++ [.write (commandFrame op p)] ∧
    t.delivered = s.delivered ++ deliveredPart (writeAnswer s).outcome (commandFrame op p) ∧
    t.writeAnswers = s.writeAnswers.tail ∧ t.readAnswers = s.readAnswers ∧ t.blocked = s.blocked ∧ t.issued = s.issued ∧
    ((writeAnswer s).outcome = .sent → t.result = .ok) ∧
    (writeReturns s = true → (writeAnswer s).outcome ≠ .sent → t.result = .err .transportError)

/-- 43_commands.md R152: a response-bearing command whose write and read succeed returns byte 2 of the first eight bytes that
arrived between its `RXCLR` and the end of its read, examining none of them. It rests on `ExclusiveUse`, built into a
command as one step (assumption log 9), and on the spec's decisions D9 (a byte after the eighth is discarded) and D20 (no
byte is lost between write and read) of 92_eei_decisions.md (assumption log 16). -/
def Obligations.SendRecvCommandsReturnStatusByte : Prop :=
  ∀ (d : Timeout) (s : State) (i : Instr) (op b0 b1 b2 b3 b4 b5 b6 b7 : Byte) (more : List Byte),
    (i, op) ∈ sendRecvCommands d → transportFair s = true → (writeAnswer s).outcome = .sent →
    commandArrivals s = b0 :: b1 :: b2 :: b3 :: b4 :: b5 :: b6 :: b7 :: more → ∃ t : State,
    exec i s = .next t ∧ t.result = .okByte b2 ∧
    t.txf.toList = commandFrame op 0 ∧ t.txi.val = 8 ∧ t.acc.toNat = op.toNat ∧
    t.rxf = #v[b0, b1, b2, b3, b4, b5, b6, b7] ∧ t.rxi.val = 8 ∧
    t.emitted = s.emitted ++ commandFrame op 0 ∧
    t.calls = s.calls ++ [.write (commandFrame op 0), .read 8 d] ∧
    t.delivered = s.delivered ++ commandFrame op 0 ∧
    t.writeAnswers = s.writeAnswers.tail ∧ t.readAnswers = s.readAnswers.tail ∧ t.blocked = s.blocked ∧
    t.issued = s.issued

/-- 43_commands.md R152 and 60_exceptions.md R181: a read that gives up before eight bytes have arrived gives
`Err(TransportError)`, not a decoded value, and the bytes that came lie in the receive register. That the read gives up
then is the transport's answer (assumption log 4, with the premise `TransportFair`); the command as one step is
`ExclusiveUse` (assumption log 9). -/
def Obligations.SendRecvShortReadIsTransportError : Prop :=
  ∀ (d : Timeout) (s : State) (i : Instr) (op : Byte),
    (i, op) ∈ sendRecvCommands d → transportFair s = true → (writeAnswer s).outcome = .sent →
    (commandArrivals s).length < 8 → ∃ t : State,
    exec i s = .next t ∧ t.result = .err .transportError ∧
    t.txf.toList = commandFrame op 0 ∧ t.txi.val = 8 ∧ t.acc.toNat = op.toNat ∧
    t.rxi.val = (commandArrivals s).length ∧
    (serialize t.rxf).take (commandArrivals s).length = commandArrivals s ∧
    t.emitted = s.emitted ++ commandFrame op 0 ∧
    t.calls = s.calls ++ [.write (commandFrame op 0), .read 8 d] ∧
    t.delivered = s.delivered ++ commandFrame op 0 ∧
    t.writeAnswers = s.writeAnswers.tail ∧ t.readAnswers = s.readAnswers.tail ∧ t.blocked = s.blocked ∧
    t.issued = s.issued

/-- 43_commands.md R152 and R168: after a failed write no read is attempted; some prefix of the frame may have reached the
module, and `RXI` is whatever the transport made of it since the `RXCLR`, 0 to 8. The command as one step is
`ExclusiveUse` (assumption log 9). -/
def Obligations.SendRecvFailedWriteMakesNoRead : Prop :=
  ∀ (d : Timeout) (s : State) (i : Instr) (op : Byte) (n : Nat),
    (i, op) ∈ sendRecvCommands d → (writeAnswer s).outcome = .failed n → ∃ t : State,
    exec i s = .next t ∧ t.result = .err .transportError ∧
    t.txf.toList = commandFrame op 0 ∧ t.txi.val = 8 ∧ t.acc.toNat = op.toNat ∧
    t.rxi.val = min 8 (writeAnswer s).arrived.length ∧
    (serialize t.rxf).take t.rxi.val = (writeAnswer s).arrived.take 8 ∧
    ((writeAnswer s).arrived = [] → t.rxf = s.rxf) ∧
    t.emitted = s.emitted ++ commandFrame op 0 ∧
    t.calls = s.calls ++ [.write (commandFrame op 0)] ∧
    t.delivered = s.delivered ++ (commandFrame op 0).take n ∧
    t.writeAnswers = s.writeAnswers.tail ∧ t.readAnswers = s.readAnswers ∧ t.blocked = s.blocked ∧ t.issued = s.issued

/-- 43_commands.md R168 and R165: whatever the transport answers, a command leaves the transmit side idle with its own frame
in `TXF`; under `TransportFair` (70_reset_and_hazards.md R215) it returns `Ok` or `Err(TransportError)`, and `Ok(v)` is
`RXF[2]` of a complete frame, while after a read that failed `RXI < 8`. A command as one step is `ExclusiveUse`
(assumption log 9). -/
def Obligations.EveryCommandReturnsAndLeavesTransmitIdle : Prop :=
  ∀ (i : Instr) (k : Command) (a : Byte) (s : State), commandOf i = some (k, a) → ∃ t : State, exec i s = .next t ∧
    t.txi.val = 8 ∧ t.txf = buildRequest (commandOpcode Config.vocab k) a 0 0 0 ∧
    t.acc.toNat = (commandOpcode Config.vocab k).toNat + a.toNat ∧
    (keepsReceiving i = true → writeReturns s = true → t.result = .ok ∨ t.result = .err .transportError) ∧
    (keepsReceiving i = true →
      t.rxf = (pushAllRx (writeAnswer s).arrived s).rxf ∧ t.rxi = (pushAllRx (writeAnswer s).arrived s).rxi) ∧
    (keepsReceiving i = false → transportFair s = true →
      (t.result = .okByte t.rxf[2] ∧ t.rxi.val = 8) ∨
        (t.result = .err .transportError ∧ ((writeAnswer s).outcome = .sent → t.rxi.val < 8)))

/-- 70_reset_and_hazards.md R210 and R215: without `TransportFair` a command may never return: while its write or its read
does not, its result is `pending`; the request has been emitted all the same, and no read follows the write. -/
def Obligations.CommandsWaitWhileTheTransportDoesNotAnswer : Prop :=
  (∀ (i : Instr) (k : Command) (a : Byte) (s : State), commandOf i = some (k, a) → writeReturns s = false → ∃ t : State,
    exec i s = .next t ∧ t.result = .pending ∧ t.txi.val = 8 ∧
    t.calls = s.calls ++ [.write (serialize (buildRequest (commandOpcode Config.vocab k) a 0 0 0))]) ∧
  (∀ (d : Timeout) (s : State) (i : Instr) (op : Byte),
    (i, op) ∈ sendRecvCommands d → (writeAnswer s).outcome = .sent → (commandReadAnswer s).returns = false → ∃ t : State,
    exec i s = .next t ∧ t.result = .pending ∧ t.txi.val = 8 ∧
    t.calls = s.calls ++ [.write (commandFrame op 0), .read 8 d] ∧
    t.rxi.val = min 8 (commandArrivals s).length)

/-- 43_commands.md R166: one write for every command; for a response-bearing command one read if the write succeeded and none
if it failed or does not return; never more than two calls. How a write that does not return is written is assumption log
4, the command as one step is log 9. -/
def Obligations.CommandsCallTheTransportAtMostTwice : Prop :=
  ∀ (i : Instr) (k : Command) (a : Byte) (s : State), commandOf i = some (k, a) → ∃ t : State, exec i s = .next t ∧
    (keepsReceiving i = true → ∃ bs, t.calls = s.calls ++ [.write bs]) ∧
    (keepsReceiving i = false →
      ((writeAnswer s).outcome = .sent → ∃ bs d, t.calls = s.calls ++ [.write bs, .read 8 d]) ∧
      ((writeAnswer s).outcome ≠ .sent → ∃ bs, t.calls = s.calls ++ [.write bs]))

/-- 43_commands.md R167: the timeout is handed to the read unchanged and nothing else depends on it. That it is a token beside
the command, and the command one step, are assumption logs 7 and 9. -/
def Obligations.TimeoutOnlyReachesTheRead : Prop :=
  ∀ (d e : Timeout) (s : State) (f : Timeout → Instr),
    f ∈ [Instr.cmdIsPressed, Instr.cmdUserCount, Instr.cmdIdentify, Instr.cmdLastId] → ∃ t u : State,
    exec (f d) s = .next t ∧ exec (f e) s = .next u ∧ u = { t with calls := u.calls } ∧
    (∀ n x, TransportCall.read n x ∈ t.calls.drop s.calls.length → n = 8 ∧ x = d)

/-- 43_commands.md R156 and 30_encoding.md R78: "is finger pressed" with status byte 0xB1 returns that byte, which classifies
as `ACK_FINGER_NOT_PRESENT` when no other of the fifteen AckCodes (assumption log 19) has the value. It rests on `ExclusiveUse`, built into a command as one
step (assumption log 9). -/
def Obligations.IsPressedReturnsTheExactAckCode : Prop :=
  ∀ (v : Vocab) (d : Timeout) (s : State) (b0 b1 b3 b4 b5 b6 b7 : Byte),
    transportFair s = true → (writeAnswer s).outcome = .sent →
    commandArrivals s = [b0, b1, 0xB1, b3, b4, b5, b6, b7] →
    (∀ n, ackValue v n = 0xB1 → n = .fingerNotPresent) → ∃ t : State,
    exec (.cmdIsPressed d) s = .next t ∧ t.result = .okByte 0xB1 ∧ ackDecode v 0xB1 = some .fingerNotPresent

/-- 30_encoding.md R78: `AckDecode(b)` is the name whose value is `b` if exactly one name has that value, and otherwise
undefined; under `OpcodesDistinct` for the AckCode values (70_reset_and_hazards.md R217) every name's value decodes to it. That there are fifteen names and no more is assumption log 19. -/
def Obligations.AckDecodeIsTheUniqueName : Prop :=
  ∀ (v : Vocab) (b : Byte),
    (∀ n, ackDecode v b = some n ↔ ackValue v n = b ∧ ∀ m, ackValue v m = b → m = n) ∧
    (ackDecode v b = none ↔ ¬ ∃ n, ackValue v n = b ∧ ∀ m, ackValue v m = b → m = n) ∧
    (acksDistinct v = true → ∀ n, ackDecode v (ackValue v n) = some n)

/-- 43_commands.md R151, 30_encoding.md R76 and 20_memory.md R48: a command without a response is its expansion, `BUILD`,
`SER`, `TWrite`, wherever before and between them the transport pushes the bytes that the command as one step takes as
arriving in its write, however the write ends (assumption logs 4, 9 and 18). -/
def Obligations.SendOnlyCommandIsItsExpansion : Prop :=
  ∀ (a : Byte) (s : State) (i : Instr) (op p : Byte) (c : Nat) (o : WriteOutcome) (w x y last : List Byte)
    (rest : List WriteAnswer), (i, op, p) ∈ sendOnlyCommands a → .host c ∉ s.blocked → .transport ∉ s.blocked →
    s.writeAnswers = ⟨o, w ++ x ++ y ++ last⟩ :: rest → ∃ t : State, exec i s = .next t ∧
      runIssued (pushEvents w ++ [byHost c (.build op p 0 0 0)] ++ pushEvents x ++ [byHost c .ser] ++ pushEvents y ++
        [⟨.host c, .twrite (commandFrame op p)⟩]) { s with writeAnswers := ⟨o, last⟩ :: rest } =
        some (noteBlocked (.host c) t)

/-- 43_commands.md R152, 30_encoding.md R76 and 20_memory.md R48: a response-bearing command whose write succeeds is its
expansion, `RXCLR`, `BUILD`, `SER`, `TWrite`, `TRead`, `RDSTAT`, wherever between them the transport pushes the bytes that
the command as one step takes as arriving in its write and its read (assumption logs 4, 9 and 18). -/
def Obligations.SendRecvCommandIsItsExpansionInterleaved : Prop :=
  ∀ (d : Timeout) (s : State) (i : Instr) (op : Byte) (c : Nat) (r : Bool) (w x y inWrite z inRead : List Byte)
    (was : List WriteAnswer) (ras : List ReadAnswer),
    (i, op) ∈ sendRecvCommands d → .host c ∉ s.blocked → .transport ∉ s.blocked →
    s.writeAnswers = ⟨.sent, w ++ x ++ y ++ inWrite⟩ :: was → s.readAnswers = ⟨z ++ inRead, r⟩ :: ras →
    ∃ t u : State, exec i s = .next t ∧
      runIssued ([byHost c .rxclr] ++ pushEvents w ++ [byHost c (.build op 0 0 0 0)] ++ pushEvents x ++
        [byHost c .ser] ++ pushEvents y ++ [⟨.host c, .twrite (commandFrame op 0)⟩] ++ pushEvents z ++
        [⟨.host c, .tread d⟩])
        { s with writeAnswers := ⟨.sent, inWrite⟩ :: was, readAnswers := ⟨inRead, r⟩ :: ras } = some u ∧
      ((u.result = .ok ∧ ∃ v, exec .rdstat u = .next { u with result := .byte v } ∧
          t = { u with result := .okByte v }) ∨
        (u.result ≠ .ok ∧ u = noteBlocked (.host c) t))

/-- 43_commands.md R152 and R168, 20_memory.md R48: a response-bearing command whose write fails or never returns is `RXCLR`,
`BUILD`, `SER`, `TWrite`, wherever between them the transport pushes the bytes that the command as one step takes as
arriving in its write (assumption logs 4, 9 and 18). -/
def Obligations.FailedSendRecvIsItsExpansionInterleaved : Prop :=
  ∀ (d : Timeout) (s : State) (i : Instr) (op : Byte) (c : Nat) (o : WriteOutcome) (w x y inWrite : List Byte)
    (was : List WriteAnswer),
    (i, op) ∈ sendRecvCommands d → .host c ∉ s.blocked → .transport ∉ s.blocked → o ≠ .sent →
    s.writeAnswers = ⟨o, w ++ x ++ y ++ inWrite⟩ :: was → ∃ t : State, exec i s = .next t ∧
      runIssued ([byHost c .rxclr] ++ pushEvents w ++ [byHost c (.build op 0 0 0 0)] ++ pushEvents x ++
        [byHost c .ser] ++ pushEvents y ++ [⟨.host c, .twrite (commandFrame op 0)⟩])
        { s with writeAnswers := ⟨o, inWrite⟩ :: was } = some (noteBlocked (.host c) t)

/-- 70_reset_and_hazards.md R217: under `ExclusiveUse`, and with no `RESET` by the platform in between (R200, assumption log
9), the operations of a command write exactly its frame, once, whatever the transport pushes among them, and a response-bearing command whose read succeeds has as its status byte byte 2 of the
first eight bytes pushed after its `RXCLR` (42_deserializer.md R138). The transport's calls are taken to return
(`TransportFair`) with all that arrives listed among the events; that the read then gives up below eight bytes is its
answer. -/
def Obligations.ExclusiveUseMakesCommandsWriteTheirFrame : Prop :=
  (∀ (a : Byte) (s : State) (i : Instr) (op p : Byte) (c : Nat) (es : List Issued) (was : List WriteAnswer),
    (i, op, p) ∈ sendOnlyCommands a → exclusiveUse c es = true → othersOnlyPush es = true →
    ownEvents c es = [byName (.build op p 0 0 0), byName .ser] → .host c ∉ s.blocked → .transport ∉ s.blocked →
    s.writeAnswers = ⟨.sent, []⟩ :: was → ∃ u : State,
      runIssued (es ++ [⟨.host c, .twrite (commandFrame op p)⟩]) s = some u ∧ u.result = .ok ∧
      u.txf.toList = commandFrame op p ∧ u.txi.val = 8 ∧ u.emitted = s.emitted ++ commandFrame op p ∧
      u.calls = s.calls ++ [.write (commandFrame op p)] ∧ u.delivered = s.delivered ++ commandFrame op p) ∧
  (∀ (d : Timeout) (s : State) (i : Instr) (op : Byte) (c : Nat) (es : List Issued) (was : List WriteAnswer)
    (ras : List ReadAnswer),
    (i, op) ∈ sendRecvCommands d → exclusiveUse c es = true → othersOnlyPush es = true →
    ownEvents c es = [byName .rxclr, byName (.build op 0 0 0 0), byName .ser, .twrite (commandFrame op 0)] →
    .host c ∉ s.blocked → .transport ∉ s.blocked →
    s.writeAnswers = ⟨.sent, []⟩ :: was → s.readAnswers = ⟨[], true⟩ :: ras → ∃ u : State,
      runIssued (es ++ [⟨.host c, .tread d⟩]) s = some u ∧
      u.txf.toList = commandFrame op 0 ∧ u.txi.val = 8 ∧ u.emitted = s.emitted ++ commandFrame op 0 ∧
      u.calls = s.calls ++ [.write (commandFrame op 0), .read 8 d] ∧ u.delivered = s.delivered ++ commandFrame op 0 ∧
      u.rxi.val = min 8 (bytesAfterClear c es).length ∧
      (serialize u.rxf).take u.rxi.val = (bytesAfterClear c es).take 8 ∧
      (u.rxi.val < 8 → u.result = .err .transportError) ∧
      ∀ (b0 b1 b2 b3 b4 b5 b6 b7 : Byte) (more : List Byte),
        bytesAfterClear c es = b0 :: b1 :: b2 :: b3 :: b4 :: b5 :: b6 :: b7 :: more →
          u.result = .ok ∧ exec .rdstat u = .next { u with result := .byte b2 })

/-- 70_reset_and_hazards.md R217 and R211: under `QuietLink` and `TransportFair` the value a response-bearing command returns
is the status byte of the module's response, and what `RXF` then holds is that response (`ResponseIsModules`); without all
of its bytes the command returns `Err(TransportError)`. That `QuietLink` means the module's bytes undamaged, so that it
implies `ResponseIsModules` here, is assumption log 20. `ExclusiveUse` is built into a command as one step (assumption
log 9). -/
def Obligations.QuietLinkMakesTheValueTheModules : Prop :=
  ∀ (d : Timeout) (s : State) (i : Instr) (op : Byte) (response : Frame),
    (i, op) ∈ sendRecvCommands d → quietLink response s = true → transportFair s = true → ∃ t : State,
      exec i s = .next t ∧
      ((t.result = .okByte (statusOf response) ∧ responseIsModules response t = true) ∨ t.result = .err .transportError) ∧
      ((writeAnswer s).outcome = .sent → commandArrivals s = serialize response →
        t.result = .okByte (statusOf response))

/-- 43_commands.md R151, R152 and 70_reset_and_hazards.md R205, R217: from `CleanEntry` a command is no hazard, it keeps the
emitted bytes whole request frames, and it adds its own frame whole; the other commands may follow at once. -/
def Obligations.CommandsFromCleanEntryKeepTheWireWhole : Prop :=
  ∀ (i : Instr) (k : Command) (a : Byte) (s : State), commandOf i = some (k, a) → cleanEntry s = true → ∃ t : State,
    exec i s = .next t ∧ hazardFree i s = true ∧ cleanEntry t = true ∧
    t.emitted = s.emitted ++ serialize (buildRequest (commandOpcode Config.vocab k) a 0 0 0) ∧
    (wireSound s → wireSound t)

/-- 70_reset_and_hazards.md R212 and 90_conflicts.md C8: what the registers held before a command makes no difference to what
it writes, sends, reads and returns; a response-bearing command also forgets every byte received before it. The
transport's answers are assumption log 4, the command as one step is log 9. -/
def Obligations.CommandsForgetEarlierCodecState : Prop :=
  ∀ (i : Instr) (k : Command) (a : Byte) (s r : State), commandOf i = some (k, a) →
    r = { s with txf := r.txf, txi := r.txi, acc := r.acc, rxf := r.rxf, rxi := r.rxi } →
    ∃ t u : State, exec i s = .next t ∧ exec i r = .next u ∧
      u = { t with rxf := u.rxf, rxi := u.rxi } ∧
      (keepsReceiving i = true →
        u.rxf = (pushAllRx (writeAnswer s).arrived r).rxf ∧ u.rxi = (pushAllRx (writeAnswer s).arrived r).rxi) ∧
      (keepsReceiving i = false →
        u.rxi = t.rxi ∧ (serialize u.rxf).take t.rxi.val = (serialize t.rxf).take t.rxi.val)

/-! ### Transport primitives issued by hand -/

/-- 43_commands.md R150 and 20_memory.md R49: `TWrite` delivers every byte in order when it succeeds, and some prefix when it
fails or never returns; the transmit side stays, and the receive side is as the transport left it. That the call ends
within its own step, and that it may never return, is assumption log 4; that any bytes may be handed over is log 17. -/
def Obligations.WriteDeliversAllOrAPrefix : Prop :=
  ∀ (bytes : List Byte) (s : State), ∃ t : State, performEvent (.twrite bytes) s = .next t ∧
    t.calls = s.calls ++ [.write bytes] ∧
    (((writeAnswer s).outcome = .sent ∧ t.result = .ok ∧ t.delivered = s.delivered ++ bytes) ∨
      (∃ n, (writeAnswer s).outcome = .failed n ∧ t.result = .err .transportError ∧
        t.delivered = s.delivered ++ bytes.take n) ∨
      (∃ n, (writeAnswer s).outcome = .never n ∧ t.result = .pending ∧ t.delivered = s.delivered ++ bytes.take n)) ∧
    t.rxi.val = min 8 (s.rxi.val + (writeAnswer s).arrived.length) ∧
    (serialize t.rxf).take t.rxi.val = ((serialize s.rxf).take s.rxi.val ++ (writeAnswer s).arrived).take 8 ∧
    ((writeAnswer s).arrived = [] → t.rxf = s.rxf) ∧
    t.txf = s.txf ∧ t.txi = s.txi ∧ t.acc = s.acc ∧ t.emitted = s.emitted ∧
    t.writeAnswers = s.writeAnswers.tail ∧ t.readAnswers = s.readAnswers ∧ t.blocked = s.blocked ∧ t.issued = s.issued

/-- 43_commands.md R150 and 20_memory.md R50: a `TRead` that returns succeeds exactly when the receive register is full once
the bytes that arrived have been pushed, in order. That the call ends within its own step, with the arrivals its answer
lists, and that it may never return, is assumption log 4. -/
def Obligations.ReadSucceedsExactlyWhenFrameIsFull : Prop :=
  ∀ (d : Timeout) (s : State), ∃ t : State, performEvent (.tread d) s = .next t ∧
    t.calls = s.calls ++ [.read 8 d] ∧
    t.rxi.val = min 8 (s.rxi.val + (readAnswer s).arrived.length) ∧
    (serialize t.rxf).take t.rxi.val = ((serialize s.rxf).take s.rxi.val ++ (readAnswer s).arrived).take 8 ∧
    ((readAnswer s).returns = true →
      (t.rxi.val = 8 → t.result = .ok) ∧ (t.rxi.val < 8 → t.result = .err .transportError)) ∧
    ((readAnswer s).returns = false → t.result = .pending) ∧
    t.txf = s.txf ∧ t.txi = s.txi ∧ t.acc = s.acc ∧ t.emitted = s.emitted ∧ t.delivered = s.delivered ∧
    t.readAnswers = s.readAnswers.tail ∧ t.writeAnswers = s.writeAnswers ∧ t.blocked = s.blocked ∧ t.issued = s.issued

/-! ### The step -/

/-- 10_state.md R27 and 20_memory.md R48 give the order; that a step takes the first of a list of what is issued is
assumption log 5, what a code is logs 6 and 14. A step runs what the next issued code decodes to, on the state with that
code taken off, and notes that the issuer is blocked if a transport call does not return (log 18). -/
def Obligations.StepRunsTheDecodedInstruction : Prop :=
  ∀ (s t : State) (who : Issuer) (c : Code) (i : Instr) (rest : List Issued),
    s.issued = ⟨who, .issue c⟩ :: rest → who ∉ s.blocked → decode Config.vocab c = .instr i →
    exec i { s with issued := rest } = .next t →
      step s = .next (noteBlocked who t) ∧ (t.result ≠ .pending → step s = exec i { s with issued := rest })

/-- 10_state.md R27: with nothing issued nothing changes. A code that is no instruction is refused by name: the model's
reading, where the spec is silent (assumption log 13). A stored table word is what the next step decodes: the model's way
to run a program (assumption log 5) and to read a table word (assumption log 6). -/
def Obligations.StepActsOnlyOnWhatIsIssued : Prop :=
  (∀ s : State, s.issued = [] → step s = .next s) ∧
  (∀ (s : State) (who : Issuer) (c : Code) (e : DecodeError) (rest : List Issued),
    s.issued = ⟨who, .issue c⟩ :: rest → who ∉ s.blocked → decode Config.vocab c = .rejected e →
      step s = .refused (.undecodable e)) ∧
  (∀ (s t : State) (nbits w : Nat) (i : Instr), decodeTableWord nbits w = some i →
    exec i { s with blocked := [] } = .next t →
      step (s.withFetchWord nbits w) = .next (noteBlocked (tableIssuer nbits w) t))

/-- 70_reset_and_hazards.md R210: an agent inside a transport call that does not return issues nothing more, while the other
agents go on; it becomes blocked in the step in which its call does not return, and stays so. That what is listed for a
blocked agent is taken off and never happens is the model's choice (assumption log 18). -/
def Obligations.BlockedHostIssuesNothing : Prop :=
  (∀ (s : State) (e : Issued) (rest : List Issued), s.issued = e :: rest → e.issuer ∈ s.blocked →
    step s = .next { s with issued := rest }) ∧
  (∀ s t : State, step s = .next t →
    t.blocked = s.blocked ∨
      (t.result = .pending ∧ ∃ e rest, s.issued = e :: rest ∧ e.issuer ∉ s.blocked ∧
        t.blocked = s.blocked ++ [e.issuer])) ∧
  (∀ (s t : State) (e : Issued) (rest : List Issued), s.issued = e :: rest → e.issuer ∉ s.blocked →
    step s = .next t → t.result = .pending → e.issuer ∈ t.blocked)

/-! ### Invariants every step keeps -/

/-- 10_state.md R34: every step keeps a frame that still has bytes to emit a request frame with its markers and checksum. -/
def Obligations.StepKeepsUnsentFrameSound : Prop :=
  ∀ s t : State, txFrameSound s → step s = .next t → txFrameSound t

/-- 41_serializer.md R118: every step without a hazard keeps the emitted bytes whole request frames followed by what has
been sent of the current one. -/
def Obligations.SafeStepKeepsWireSound : Prop :=
  ∀ s t : State, safeStep s = true → wireSound s → step s = .next t → wireSound t

/-- Both transmit-side invariants hold after reset. -/
def Obligations.ResetStateIsSound : Prop :=
  txFrameSound State.reset ∧ wireSound State.reset

/-- 00_scope.md R15: two states that differ only in `ACC`, in bytes of `TXF` already emitted and in bytes of `RXF` not yet
received stay so, and give the same results, through every step. -/
def Obligations.UnobservableContentsNeverShow : Prop :=
  ∀ s t : State, indistinguishable s t →
    (∀ s', step s = .next s' → ∃ t', step t = .next t' ∧ indistinguishable s' t') ∧
    (∀ e, step s = .refused e → step t = .refused e)

/-! ### Encoding -/

/-- Decoding the encoding of a well-formed instruction gives it back, for every binding of the named parameters. -/
def Obligations.DecodeOfEncodeIsTheInstruction : Prop :=
  ∀ (v : Vocab) (i : Instr), wellFormed v i = true → decode v (encode v i) = .instr i

/-- 70_reset_and_hazards.md R217 `OpcodesDistinct`: under it every command's frame decodes to that command, with every
operand. That a frame carries its direction, and that one that fits a command's row is that command and not the general
request, is assumption log 6. -/
def Obligations.DistinctOpcodesMakeCommandsDecodable : Prop :=
  ∀ (v : Vocab) (k : Command) (a : Byte) (t : Timeout), opcodesDistinct v = true →
    ∃ p, decode v (requestCode (commandOpcode v k) p 0 0 0 t) = .instr (commandInstr a t k) ∧
      (commandTakesOperand k = true → p = a) ∧ (commandTakesOperand k = false → p = 0)

/-- 30_encoding.md R61 and spec/opcode_table.json: a frame's table word lists its bytes most significant first, and every
request frame has the table's fixed bits, with the command's own zero parameters. -/
def Obligations.FrameWordsHaveTheTablesFixedBits : Prop :=
  (∀ f : Frame, tableBytes 64 (frameWord f).toNat = serialize f) ∧
  (∀ op p0 p1 p2 p3 : Byte,
    frameWord (buildRequest op p0 p1 p2 p3) &&& 0xFF000000000000FF = 0xF5000000000000F5) ∧
  (∀ op a : Byte, frameWord (buildRequest op a 0 0 0) &&& 0xFF0000FFFFFF00FF = 0xF5000000000000F5) ∧
  (∀ op : Byte, frameWord (buildRequest op 0 0 0 0) &&& 0xFF00FFFFFFFF00FF = 0xF5000000000000F5)

/-- 30_encoding.md R71 and R72: every request frame is an instruction, every eight bytes from the module are a response, and a
sequence of any other length is no frame. -/
def Obligations.EveryFrameDecodes : Prop :=
  (∀ (v : Vocab) (op p0 p1 p2 p3 : Byte) (t : Timeout), ∃ i, decode v (requestCode op p0 p1 p2 p3 t) = .instr i ∧
    (i = .request op p0 p1 p2 p3 ∨ ∃ k, i = commandInstr p0 t k ∧ op = commandOpcode v k)) ∧
  (∀ (v : Vocab) (b0 b1 b2 b3 b4 b5 b6 b7 : Byte) (t : Timeout),
    decode v (.frame .moduleToHost [b0, b1, b2, b3, b4, b5, b6, b7] t) = .instr (.response b0 b1 b2 b3 b4 b5 b6 b7)) ∧
  (∀ (v : Vocab) (dir : Direction) (bytes : List Byte) (t : Timeout), bytes.length ≠ 8 →
    decode v (.frame dir bytes t) = .rejected (.badLength bytes.length))

/-- 30_encoding.md R60, R67 and R74, 95_test_vectors.md: a few codes decode to what they stand for: vectors B6 and X9, three
operations by name, and a command by name with its operand byte. The forms of the codes are the model's: that a frame
carries a direction is assumption log 6, that a selection by name is a mnemonic with operands, for a command too, is log
14. -/
def Obligations.SampleCodesDecode : Prop :=
  ∀ v : Vocab,
    decode v (.frame .hostToModule [0xF5, 0x0B, 0xF5, 0xF5, 0xF5, 0xF5, 0xDF, 0xF5] ⟨0⟩) =
      .instr (.request 0x0B 0xF5 0xF5 0xF5 0xF5) ∧
    decode v (.frame .moduleToHost [0x00, 0x77, 0x2A, 0x11, 0x22, 0x33, 0x99, 0x00] ⟨0⟩) =
      .instr (.response 0x00 0x77 0x2A 0x11 0x22 0x33 0x99 0x00) ∧
    decode v (.named .csum [0x2A, 0x03, 0x00, 0x00, 0x00] none) = .instr (.csum 0x2A 0x03 0x00 0x00 0x00) ∧
    decode v (.named .rxpush [0xF5] none) = .instr (.rxpush 0xF5) ∧
    decode v (.named .cmdLed [0x07] none) = .instr (.cmdLed 0x07) ∧
    decode v (.named .reset [] none) = .instr .reset
end

