-- ==== Sys2Proof/Laws/State.lean ====
section
/-! SUPPORT. One lemma per field per named update of the state: no later proof unfolds a record update. -/

namespace Sys2Proof.Machine

variable (s : State)

/-! ### `setTxf` -/

@[simp] theorem setTxf_txf (x : Frame) : (setTxf x s).txf = x := rfl
@[simp] theorem setTxf_txi (x : Frame) : (setTxf x s).txi = s.txi := rfl
@[simp] theorem setTxf_acc (x : Frame) : (setTxf x s).acc = s.acc := rfl
@[simp] theorem setTxf_rxf (x : Frame) : (setTxf x s).rxf = s.rxf := rfl
@[simp] theorem setTxf_rxi (x : Frame) : (setTxf x s).rxi = s.rxi := rfl
@[simp] theorem setTxf_result (x : Frame) : (setTxf x s).result = s.result := rfl
@[simp] theorem setTxf_emitted (x : Frame) : (setTxf x s).emitted = s.emitted := rfl
@[simp] theorem setTxf_calls (x : Frame) : (setTxf x s).calls = s.calls := rfl
@[simp] theorem setTxf_delivered (x : Frame) : (setTxf x s).delivered = s.delivered := rfl
@[simp] theorem setTxf_writeAnswers (x : Frame) : (setTxf x s).writeAnswers = s.writeAnswers := rfl
@[simp] theorem setTxf_readAnswers (x : Frame) : (setTxf x s).readAnswers = s.readAnswers := rfl
@[simp] theorem setTxf_blocked (x : Frame) : (setTxf x s).blocked = s.blocked := rfl
@[simp] theorem setTxf_issued (x : Frame) : (setTxf x s).issued = s.issued := rfl
@[simp] theorem setTxf_draws (x : Frame) : (setTxf x s).draws = s.draws := rfl

/-! ### `setTxi` -/

@[simp] theorem setTxi_txf (x : Index) : (setTxi x s).txf = s.txf := rfl
@[simp] theorem setTxi_txi (x : Index) : (setTxi x s).txi = x := rfl
@[simp] theorem setTxi_acc (x : Index) : (setTxi x s).acc = s.acc := rfl
@[simp] theorem setTxi_rxf (x : Index) : (setTxi x s).rxf = s.rxf := rfl
@[simp] theorem setTxi_rxi (x : Index) : (setTxi x s).rxi = s.rxi := rfl
@[simp] theorem setTxi_result (x : Index) : (setTxi x s).result = s.result := rfl
@[simp] theorem setTxi_emitted (x : Index) : (setTxi x s).emitted = s.emitted := rfl
@[simp] theorem setTxi_calls (x : Index) : (setTxi x s).calls = s.calls := rfl
@[simp] theorem setTxi_delivered (x : Index) : (setTxi x s).delivered = s.delivered := rfl
@[simp] theorem setTxi_writeAnswers (x : Index) : (setTxi x s).writeAnswers = s.writeAnswers := rfl
@[simp] theorem setTxi_readAnswers (x : Index) : (setTxi x s).readAnswers = s.readAnswers := rfl
@[simp] theorem setTxi_blocked (x : Index) : (setTxi x s).blocked = s.blocked := rfl
@[simp] theorem setTxi_issued (x : Index) : (setTxi x s).issued = s.issued := rfl
@[simp] theorem setTxi_draws (x : Index) : (setTxi x s).draws = s.draws := rfl

/-! ### `setAcc` -/

@[simp] theorem setAcc_txf (x : Half) : (setAcc x s).txf = s.txf := rfl
@[simp] theorem setAcc_txi (x : Half) : (setAcc x s).txi = s.txi := rfl
@[simp] theorem setAcc_acc (x : Half) : (setAcc x s).acc = x := rfl
@[simp] theorem setAcc_rxf (x : Half) : (setAcc x s).rxf = s.rxf := rfl
@[simp] theorem setAcc_rxi (x : Half) : (setAcc x s).rxi = s.rxi := rfl
@[simp] theorem setAcc_result (x : Half) : (setAcc x s).result = s.result := rfl
@[simp] theorem setAcc_emitted (x : Half) : (setAcc x s).emitted = s.emitted := rfl
@[simp] theorem setAcc_calls (x : Half) : (setAcc x s).calls = s.calls := rfl
@[simp] theorem setAcc_delivered (x : Half) : (setAcc x s).delivered = s.delivered := rfl
@[simp] theorem setAcc_writeAnswers (x : Half) : (setAcc x s).writeAnswers = s.writeAnswers := rfl
@[simp] theorem setAcc_readAnswers (x : Half) : (setAcc x s).readAnswers = s.readAnswers := rfl
@[simp] theorem setAcc_blocked (x : Half) : (setAcc x s).blocked = s.blocked := rfl
@[simp] theorem setAcc_issued (x : Half) : (setAcc x s).issued = s.issued := rfl
@[simp] theorem setAcc_draws (x : Half) : (setAcc x s).draws = s.draws := rfl

/-! ### `setRxf` -/

@[simp] theorem setRxf_txf (x : Frame) : (setRxf x s).txf = s.txf := rfl
@[simp] theorem setRxf_txi (x : Frame) : (setRxf x s).txi = s.txi := rfl
@[simp] theorem setRxf_acc (x : Frame) : (setRxf x s).acc = s.acc := rfl
@[simp] theorem setRxf_rxf (x : Frame) : (setRxf x s).rxf = x := rfl
@[simp] theorem setRxf_rxi (x : Frame) : (setRxf x s).rxi = s.rxi := rfl
@[simp] theorem setRxf_result (x : Frame) : (setRxf x s).result = s.result := rfl
@[simp] theorem setRxf_emitted (x : Frame) : (setRxf x s).emitted = s.emitted := rfl
@[simp] theorem setRxf_calls (x : Frame) : (setRxf x s).calls = s.calls := rfl
@[simp] theorem setRxf_delivered (x : Frame) : (setRxf x s).delivered = s.delivered := rfl
@[simp] theorem setRxf_writeAnswers (x : Frame) : (setRxf x s).writeAnswers = s.writeAnswers := rfl
@[simp] theorem setRxf_readAnswers (x : Frame) : (setRxf x s).readAnswers = s.readAnswers := rfl
@[simp] theorem setRxf_blocked (x : Frame) : (setRxf x s).blocked = s.blocked := rfl
@[simp] theorem setRxf_issued (x : Frame) : (setRxf x s).issued = s.issued := rfl
@[simp] theorem setRxf_draws (x : Frame) : (setRxf x s).draws = s.draws := rfl

/-! ### `setRxi` -/

@[simp] theorem setRxi_txf (x : Index) : (setRxi x s).txf = s.txf := rfl
@[simp] theorem setRxi_txi (x : Index) : (setRxi x s).txi = s.txi := rfl
@[simp] theorem setRxi_acc (x : Index) : (setRxi x s).acc = s.acc := rfl
@[simp] theorem setRxi_rxf (x : Index) : (setRxi x s).rxf = s.rxf := rfl
@[simp] theorem setRxi_rxi (x : Index) : (setRxi x s).rxi = x := rfl
@[simp] theorem setRxi_result (x : Index) : (setRxi x s).result = s.result := rfl
@[simp] theorem setRxi_emitted (x : Index) : (setRxi x s).emitted = s.emitted := rfl
@[simp] theorem setRxi_calls (x : Index) : (setRxi x s).calls = s.calls := rfl
@[simp] theorem setRxi_delivered (x : Index) : (setRxi x s).delivered = s.delivered := rfl
@[simp] theorem setRxi_writeAnswers (x : Index) : (setRxi x s).writeAnswers = s.writeAnswers := rfl
@[simp] theorem setRxi_readAnswers (x : Index) : (setRxi x s).readAnswers = s.readAnswers := rfl
@[simp] theorem setRxi_blocked (x : Index) : (setRxi x s).blocked = s.blocked := rfl
@[simp] theorem setRxi_issued (x : Index) : (setRxi x s).issued = s.issued := rfl
@[simp] theorem setRxi_draws (x : Index) : (setRxi x s).draws = s.draws := rfl

/-! ### `setResult` -/

@[simp] theorem setResult_txf (x : Result) : (setResult x s).txf = s.txf := rfl
@[simp] theorem setResult_txi (x : Result) : (setResult x s).txi = s.txi := rfl
@[simp] theorem setResult_acc (x : Result) : (setResult x s).acc = s.acc := rfl
@[simp] theorem setResult_rxf (x : Result) : (setResult x s).rxf = s.rxf := rfl
@[simp] theorem setResult_rxi (x : Result) : (setResult x s).rxi = s.rxi := rfl
@[simp] theorem setResult_result (x : Result) : (setResult x s).result = x := rfl
@[simp] theorem setResult_emitted (x : Result) : (setResult x s).emitted = s.emitted := rfl
@[simp] theorem setResult_calls (x : Result) : (setResult x s).calls = s.calls := rfl
@[simp] theorem setResult_delivered (x : Result) : (setResult x s).delivered = s.delivered := rfl
@[simp] theorem setResult_writeAnswers (x : Result) : (setResult x s).writeAnswers = s.writeAnswers := rfl
@[simp] theorem setResult_readAnswers (x : Result) : (setResult x s).readAnswers = s.readAnswers := rfl
@[simp] theorem setResult_blocked (x : Result) : (setResult x s).blocked = s.blocked := rfl
@[simp] theorem setResult_issued (x : Result) : (setResult x s).issued = s.issued := rfl
@[simp] theorem setResult_draws (x : Result) : (setResult x s).draws = s.draws := rfl

/-! ### `addEmitted` -/

@[simp] theorem addEmitted_txf (x : List Byte) : (addEmitted x s).txf = s.txf := rfl
@[simp] theorem addEmitted_txi (x : List Byte) : (addEmitted x s).txi = s.txi := rfl
@[simp] theorem addEmitted_acc (x : List Byte) : (addEmitted x s).acc = s.acc := rfl
@[simp] theorem addEmitted_rxf (x : List Byte) : (addEmitted x s).rxf = s.rxf := rfl
@[simp] theorem addEmitted_rxi (x : List Byte) : (addEmitted x s).rxi = s.rxi := rfl
@[simp] theorem addEmitted_result (x : List Byte) : (addEmitted x s).result = s.result := rfl
@[simp] theorem addEmitted_emitted (x : List Byte) : (addEmitted x s).emitted = s.emitted ++ x := rfl
@[simp] theorem addEmitted_calls (x : List Byte) : (addEmitted x s).calls = s.calls := rfl
@[simp] theorem addEmitted_delivered (x : List Byte) : (addEmitted x s).delivered = s.delivered := rfl
@[simp] theorem addEmitted_writeAnswers (x : List Byte) : (addEmitted x s).writeAnswers = s.writeAnswers := rfl
@[simp] theorem addEmitted_readAnswers (x : List Byte) : (addEmitted x s).readAnswers = s.readAnswers := rfl
@[simp] theorem addEmitted_blocked (x : List Byte) : (addEmitted x s).blocked = s.blocked := rfl
@[simp] theorem addEmitted_issued (x : List Byte) : (addEmitted x s).issued = s.issued := rfl
@[simp] theorem addEmitted_draws (x : List Byte) : (addEmitted x s).draws = s.draws := rfl

/-! ### `addCall` -/

@[simp] theorem addCall_txf (x : TransportCall) : (addCall x s).txf = s.txf := rfl
@[simp] theorem addCall_txi (x : TransportCall) : (addCall x s).txi = s.txi := rfl
@[simp] theorem addCall_acc (x : TransportCall) : (addCall x s).acc = s.acc := rfl
@[simp] theorem addCall_rxf (x : TransportCall) : (addCall x s).rxf = s.rxf := rfl
@[simp] theorem addCall_rxi (x : TransportCall) : (addCall x s).rxi = s.rxi := rfl
@[simp] theorem addCall_result (x : TransportCall) : (addCall x s).result = s.result := rfl
@[simp] theorem addCall_emitted (x : TransportCall) : (addCall x s).emitted = s.emitted := rfl
@[simp] theorem addCall_calls (x : TransportCall) : (addCall x s).calls = s.calls ++ [x] := rfl
@[simp] theorem addCall_delivered (x : TransportCall) : (addCall x s).delivered = s.delivered := rfl
@[simp] theorem addCall_writeAnswers (x : TransportCall) : (addCall x s).writeAnswers = s.writeAnswers := rfl
@[simp] theorem addCall_readAnswers (x : TransportCall) : (addCall x s).readAnswers = s.readAnswers := rfl
@[simp] theorem addCall_blocked (x : TransportCall) : (addCall x s).blocked = s.blocked := rfl
@[simp] theorem addCall_issued (x : TransportCall) : (addCall x s).issued = s.issued := rfl
@[simp] theorem addCall_draws (x : TransportCall) : (addCall x s).draws = s.draws := rfl

/-! ### `addDelivered` -/

@[simp] theorem addDelivered_txf (x : List Byte) : (addDelivered x s).txf = s.txf := rfl
@[simp] theorem addDelivered_txi (x : List Byte) : (addDelivered x s).txi = s.txi := rfl
@[simp] theorem addDelivered_acc (x : List Byte) : (addDelivered x s).acc = s.acc := rfl
@[simp] theorem addDelivered_rxf (x : List Byte) : (addDelivered x s).rxf = s.rxf := rfl
@[simp] theorem addDelivered_rxi (x : List Byte) : (addDelivered x s).rxi = s.rxi := rfl
@[simp] theorem addDelivered_result (x : List Byte) : (addDelivered x s).result = s.result := rfl
@[simp] theorem addDelivered_emitted (x : List Byte) : (addDelivered x s).emitted = s.emitted := rfl
@[simp] theorem addDelivered_calls (x : List Byte) : (addDelivered x s).calls = s.calls := rfl
@[simp] theorem addDelivered_delivered (x : List Byte) : (addDelivered x s).delivered = s.delivered ++ x := rfl
@[simp] theorem addDelivered_writeAnswers (x : List Byte) : (addDelivered x s).writeAnswers = s.writeAnswers := rfl
@[simp] theorem addDelivered_readAnswers (x : List Byte) : (addDelivered x s).readAnswers = s.readAnswers := rfl
@[simp] theorem addDelivered_blocked (x : List Byte) : (addDelivered x s).blocked = s.blocked := rfl
@[simp] theorem addDelivered_issued (x : List Byte) : (addDelivered x s).issued = s.issued := rfl
@[simp] theorem addDelivered_draws (x : List Byte) : (addDelivered x s).draws = s.draws := rfl

/-! ### `setWriteAnswers` -/

@[simp] theorem setWriteAnswers_txf (x : List WriteAnswer) : (setWriteAnswers x s).txf = s.txf := rfl
@[simp] theorem setWriteAnswers_txi (x : List WriteAnswer) : (setWriteAnswers x s).txi = s.txi := rfl
@[simp] theorem setWriteAnswers_acc (x : List WriteAnswer) : (setWriteAnswers x s).acc = s.acc := rfl
@[simp] theorem setWriteAnswers_rxf (x : List WriteAnswer) : (setWriteAnswers x s).rxf = s.rxf := rfl
@[simp] theorem setWriteAnswers_rxi (x : List WriteAnswer) : (setWriteAnswers x s).rxi = s.rxi := rfl
@[simp] theorem setWriteAnswers_result (x : List WriteAnswer) : (setWriteAnswers x s).result = s.result := rfl
@[simp] theorem setWriteAnswers_emitted (x : List WriteAnswer) : (setWriteAnswers x s).emitted = s.emitted := rfl
@[simp] theorem setWriteAnswers_calls (x : List WriteAnswer) : (setWriteAnswers x s).calls = s.calls := rfl
@[simp] theorem setWriteAnswers_delivered (x : List WriteAnswer) : (setWriteAnswers x s).delivered = s.delivered := rfl
@[simp] theorem setWriteAnswers_writeAnswers (x : List WriteAnswer) : (setWriteAnswers x s).writeAnswers = x := rfl
@[simp] theorem setWriteAnswers_readAnswers (x : List WriteAnswer) : (setWriteAnswers x s).readAnswers = s.readAnswers := rfl
@[simp] theorem setWriteAnswers_blocked (x : List WriteAnswer) : (setWriteAnswers x s).blocked = s.blocked := rfl
@[simp] theorem setWriteAnswers_issued (x : List WriteAnswer) : (setWriteAnswers x s).issued = s.issued := rfl
@[simp] theorem setWriteAnswers_draws (x : List WriteAnswer) : (setWriteAnswers x s).draws = s.draws := rfl

/-! ### `setReadAnswers` -/

@[simp] theorem setReadAnswers_txf (x : List ReadAnswer) : (setReadAnswers x s).txf = s.txf := rfl
@[simp] theorem setReadAnswers_txi (x : List ReadAnswer) : (setReadAnswers x s).txi = s.txi := rfl
@[simp] theorem setReadAnswers_acc (x : List ReadAnswer) : (setReadAnswers x s).acc = s.acc := rfl
@[simp] theorem setReadAnswers_rxf (x : List ReadAnswer) : (setReadAnswers x s).rxf = s.rxf := rfl
@[simp] theorem setReadAnswers_rxi (x : List ReadAnswer) : (setReadAnswers x s).rxi = s.rxi := rfl
@[simp] theorem setReadAnswers_result (x : List ReadAnswer) : (setReadAnswers x s).result = s.result := rfl
@[simp] theorem setReadAnswers_emitted (x : List ReadAnswer) : (setReadAnswers x s).emitted = s.emitted := rfl
@[simp] theorem setReadAnswers_calls (x : List ReadAnswer) : (setReadAnswers x s).calls = s.calls := rfl
@[simp] theorem setReadAnswers_delivered (x : List ReadAnswer) : (setReadAnswers x s).delivered = s.delivered := rfl
@[simp] theorem setReadAnswers_writeAnswers (x : List ReadAnswer) : (setReadAnswers x s).writeAnswers = s.writeAnswers := rfl
@[simp] theorem setReadAnswers_readAnswers (x : List ReadAnswer) : (setReadAnswers x s).readAnswers = x := rfl
@[simp] theorem setReadAnswers_blocked (x : List ReadAnswer) : (setReadAnswers x s).blocked = s.blocked := rfl
@[simp] theorem setReadAnswers_issued (x : List ReadAnswer) : (setReadAnswers x s).issued = s.issued := rfl
@[simp] theorem setReadAnswers_draws (x : List ReadAnswer) : (setReadAnswers x s).draws = s.draws := rfl

/-! ### `setBlocked` -/

@[simp] theorem setBlocked_txf (x : List Issuer) : (setBlocked x s).txf = s.txf := rfl
@[simp] theorem setBlocked_txi (x : List Issuer) : (setBlocked x s).txi = s.txi := rfl
@[simp] theorem setBlocked_acc (x : List Issuer) : (setBlocked x s).acc = s.acc := rfl
@[simp] theorem setBlocked_rxf (x : List Issuer) : (setBlocked x s).rxf = s.rxf := rfl
@[simp] theorem setBlocked_rxi (x : List Issuer) : (setBlocked x s).rxi = s.rxi := rfl
@[simp] theorem setBlocked_result (x : List Issuer) : (setBlocked x s).result = s.result := rfl
@[simp] theorem setBlocked_emitted (x : List Issuer) : (setBlocked x s).emitted = s.emitted := rfl
@[simp] theorem setBlocked_calls (x : List Issuer) : (setBlocked x s).calls = s.calls := rfl
@[simp] theorem setBlocked_delivered (x : List Issuer) : (setBlocked x s).delivered = s.delivered := rfl
@[simp] theorem setBlocked_writeAnswers (x : List Issuer) : (setBlocked x s).writeAnswers = s.writeAnswers := rfl
@[simp] theorem setBlocked_readAnswers (x : List Issuer) : (setBlocked x s).readAnswers = s.readAnswers := rfl
@[simp] theorem setBlocked_blocked (x : List Issuer) : (setBlocked x s).blocked = x := rfl
@[simp] theorem setBlocked_issued (x : List Issuer) : (setBlocked x s).issued = s.issued := rfl
@[simp] theorem setBlocked_draws (x : List Issuer) : (setBlocked x s).draws = s.draws := rfl

/-! ### `setIssued` -/

@[simp] theorem setIssued_txf (x : List Issued) : (setIssued x s).txf = s.txf := rfl
@[simp] theorem setIssued_txi (x : List Issued) : (setIssued x s).txi = s.txi := rfl
@[simp] theorem setIssued_acc (x : List Issued) : (setIssued x s).acc = s.acc := rfl
@[simp] theorem setIssued_rxf (x : List Issued) : (setIssued x s).rxf = s.rxf := rfl
@[simp] theorem setIssued_rxi (x : List Issued) : (setIssued x s).rxi = s.rxi := rfl
@[simp] theorem setIssued_result (x : List Issued) : (setIssued x s).result = s.result := rfl
@[simp] theorem setIssued_emitted (x : List Issued) : (setIssued x s).emitted = s.emitted := rfl
@[simp] theorem setIssued_calls (x : List Issued) : (setIssued x s).calls = s.calls := rfl
@[simp] theorem setIssued_delivered (x : List Issued) : (setIssued x s).delivered = s.delivered := rfl
@[simp] theorem setIssued_writeAnswers (x : List Issued) : (setIssued x s).writeAnswers = s.writeAnswers := rfl
@[simp] theorem setIssued_readAnswers (x : List Issued) : (setIssued x s).readAnswers = s.readAnswers := rfl
@[simp] theorem setIssued_blocked (x : List Issued) : (setIssued x s).blocked = s.blocked := rfl
@[simp] theorem setIssued_issued (x : List Issued) : (setIssued x s).issued = x := rfl
@[simp] theorem setIssued_draws (x : List Issued) : (setIssued x s).draws = s.draws := rfl

/-! ### `addDraw` -/

@[simp] theorem addDraw_txf : (addDraw s).txf = s.txf := rfl
@[simp] theorem addDraw_txi : (addDraw s).txi = s.txi := rfl
@[simp] theorem addDraw_acc : (addDraw s).acc = s.acc := rfl
@[simp] theorem addDraw_rxf : (addDraw s).rxf = s.rxf := rfl
@[simp] theorem addDraw_rxi : (addDraw s).rxi = s.rxi := rfl
@[simp] theorem addDraw_result : (addDraw s).result = s.result := rfl
@[simp] theorem addDraw_emitted : (addDraw s).emitted = s.emitted := rfl
@[simp] theorem addDraw_calls : (addDraw s).calls = s.calls := rfl
@[simp] theorem addDraw_delivered : (addDraw s).delivered = s.delivered := rfl
@[simp] theorem addDraw_writeAnswers : (addDraw s).writeAnswers = s.writeAnswers := rfl
@[simp] theorem addDraw_readAnswers : (addDraw s).readAnswers = s.readAnswers := rfl
@[simp] theorem addDraw_blocked : (addDraw s).blocked = s.blocked := rfl
@[simp] theorem addDraw_issued : (addDraw s).issued = s.issued := rfl
@[simp] theorem addDraw_draws : (addDraw s).draws = s.draws + 1 := rfl

end Sys2Proof.Machine
end

