-- ==== Sys2Proof/Laws/Ops.lean ====
section
/-! SUPPORT. One lemma per shared operation that says all it can do; later proofs cite it and do not unfold the operation. -/

namespace Sys2Proof.Machine

/-! ### Frames -/

@[simp] theorem serialize_eq_toList (f : Frame) : serialize f = f.toList := by
  rcases f with ⟨⟨l⟩, h⟩
  match l, h with
  | [_, _, _, _, _, _, _, _], _ => rfl

@[simp] theorem parseResponse_eq_self (f : Vector Byte 8) : parseResponse f = f := by
  rcases f with ⟨⟨l⟩, h⟩
  match l, h with
  | [_, _, _, _, _, _, _, _], _ => rfl

theorem buildRequest_toList (op p0 p1 p2 p3 : Byte) :
    (buildRequest op p0 p1 p2 p3).toList =
      [Config.marker, op, p0, p1, p2, p3, checksum op p0 p1 p2 p3, Config.marker] := rfl

/-- Accumulating after `h` adds the sum of the bytes. -/
theorem foldl_zext16_eq_add (bs : List Byte) (h : Half) :
    bs.foldl (fun acc b => acc + zext16 b) h = h + accumulate bs := by
  induction bs generalizing h with
  | nil => simp [accumulate]
  | cons b bs ih =>
    have h0 := ih (0 + zext16 b)
    have h1 := ih (h + zext16 b)
    simp only [accumulate, List.foldl_cons] at *
    rw [h1, h0]
    simp [BitVec.add_assoc]

@[simp] theorem accumulate_nil : accumulate [] = 0 := rfl

@[simp] theorem accumulate_cons (b : Byte) (bs : List Byte) :
    accumulate (b :: bs) = zext16 b + accumulate bs := by
  have h := foldl_zext16_eq_add bs (0 + zext16 b)
  simpa [accumulate] using h

/-- The accumulator is the integer sum modulo 65536. -/
theorem accumulate_toNat (bs : List Byte) :
    (accumulate bs).toNat = (bs.map BitVec.toNat).sum % 65536 := by
  induction bs with
  | nil => rfl
  | cons b bs ih => simp [zext16, ih, BitVec.toNat_add]

/-- Five bytes never wrap (40_checksum.md R95). -/
theorem sum16_toNat (op p0 p1 p2 p3 : Byte) :
    (sum16 op p0 p1 p2 p3).toNat = op.toNat + p0.toNat + p1.toNat + p2.toNat + p3.toNat := by
  have h := accumulate_toNat [op, p0, p1, p2, p3]
  have := op.isLt; have := p0.isLt; have := p1.isLt; have := p2.isLt; have := p3.isLt
  simp only [List.map_cons, List.map_nil, List.sum_cons, List.sum_nil] at h
  unfold sum16
  omega

theorem lowByte_toNat (h : Half) : (lowByte h).toNat = h.toNat % 256 := by
  simp [lowByte]

theorem checksum_toNat (op p0 p1 p2 p3 : Byte) :
    (checksum op p0 p1 p2 p3).toNat = (op.toNat + p0.toNat + p1.toNat + p2.toNat + p3.toNat) % 256 := by
  rw [checksum, lowByte_toNat, sum16_toNat]

/-! ### Transmit side -/

/-- What `BUILD` leaves, field by field. -/
theorem buildFrame_eq (op p0 p1 p2 p3 : Byte) (s : State) :
    buildFrame op p0 p1 p2 p3 s =
      { s with txf := buildRequest op p0 p1 p2 p3, acc := sum16 op p0 p1 p2 p3, txi := 0 } := rfl

/-- `TXPOP` below 8. -/
theorem advanceTx_of_lt (s : State) (h : s.txi.val < 8) :
    advanceTx s = { s with txi := ⟨s.txi.val + 1, by omega⟩, emitted := s.emitted ++ [s.txf[s.txi.val]] } := by
  simp [advanceTx, h, addEmitted, setTxi]

/-- `TXPOP` at 8. -/
theorem advanceTx_of_eq (s : State) (h : s.txi.val = 8) : advanceTx s = s := by
  simp [advanceTx, h]

theorem nextTxByte_of_lt (s : State) (h : s.txi.val < 8) : nextTxByte s = some s.txf[s.txi.val] := by
  simp [nextTxByte, h]

theorem nextTxByte_of_eq (s : State) (h : s.txi.val = 8) : nextTxByte s = none := by
  simp [nextTxByte, h]

/-- What `SER` leaves. -/
theorem finishTx_eq (s : State) :
    finishTx s = { s with txi := 8, emitted := s.emitted ++ s.txf.toList.drop s.txi.val } := by
  simp [finishTx, setTxi, addEmitted, remainingTxBytes]

/-! ### Receive side -/

/-- `RXPUSH` below 8. -/
theorem pushRx_of_lt (b : Byte) (s : State) (h : s.rxi.val < 8) :
    pushRx b s = { s with rxf := s.rxf.set s.rxi.val b h, rxi := ⟨s.rxi.val + 1, by omega⟩ } := by
  simp [pushRx, h, setRxi, setRxf]

/-- `RXPUSH` at 8 discards the byte. -/
theorem pushRx_of_eq (b : Byte) (s : State) (h : s.rxi.val = 8) : pushRx b s = s := by
  simp [pushRx, h]

/-- `RXPUSH` writes `RXF` and `RXI` only. -/
theorem pushRx_frame (b : Byte) (s : State) :
    pushRx b s = { s with rxf := (pushRx b s).rxf, rxi := (pushRx b s).rxi } := by
  unfold pushRx
  split <;> rfl

@[simp] theorem pushAllRx_nil (s : State) : pushAllRx [] s = s := rfl

@[simp] theorem pushAllRx_cons (b : Byte) (bs : List Byte) (s : State) :
    pushAllRx (b :: bs) s = pushAllRx bs (pushRx b s) := rfl

theorem pushAllRx_append (bs cs : List Byte) (s : State) :
    pushAllRx (bs ++ cs) s = pushAllRx cs (pushAllRx bs s) := by
  simp [pushAllRx, List.foldl_append]

/-- Receiving writes `RXF` and `RXI` only. -/
theorem pushAllRx_frame (bs : List Byte) (s : State) :
    pushAllRx bs s = { s with rxf := (pushAllRx bs s).rxf, rxi := (pushAllRx bs s).rxi } := by
  induction bs generalizing s with
  | nil => rfl
  | cons b bs ih =>
    rw [pushAllRx_cons, ih (pushRx b s), pushRx_frame b s]

/-- The received part of `RXF`, after one more byte. -/
theorem pushRx_received (b : Byte) (s : State) :
    (pushRx b s).rxi.val = min 8 (s.rxi.val + 1) ∧
      (pushRx b s).rxf.toList.take (pushRx b s).rxi.val = (s.rxf.toList.take s.rxi.val ++ [b]).take 8 := by
  rcases Nat.lt_or_ge s.rxi.val 8 with h | h
  · rw [pushRx_of_lt b s h]
    refine ⟨by simp; omega, ?_⟩
    have hl : s.rxf.toList.length = 8 := by simp
    rw [Vector.toList_set, List.take_of_length_le (i := 8) (by simp; omega), List.take_add_one,
      List.take_set_of_le (by omega)]
    simp [h]
  · have h8 : s.rxi.val = 8 := by omega
    rw [pushRx_of_eq b s h8, h8]
    simp

/-- The received part of `RXF`, after any bytes: the first eight in order, and no more (42_deserializer.md R138). -/
theorem pushAllRx_received (bs : List Byte) (s : State) :
    (pushAllRx bs s).rxi.val = min 8 (s.rxi.val + bs.length) ∧
      (pushAllRx bs s).rxf.toList.take (pushAllRx bs s).rxi.val =
        (s.rxf.toList.take s.rxi.val ++ bs).take 8 := by
  induction bs generalizing s with
  | nil => exact ⟨by simp; omega, by simp⟩
  | cons b bs ih =>
    obtain ⟨h1, h2⟩ := ih (pushRx b s)
    obtain ⟨g1, g2⟩ := pushRx_received b s
    refine ⟨by rw [pushAllRx_cons, h1, g1, List.length_cons]; omega, ?_⟩
    rw [pushAllRx_cons, h2, g2]
    rcases Nat.lt_or_ge s.rxi.val 8 with h | h
    · rw [List.take_of_length_le (i := 8) (l := List.take _ _ ++ [b]) (by simp; omega)]
      simp
    · have h8 : s.rxi.val = 8 := by omega
      simp [h8]

/-- A full receive register takes nothing more. -/
theorem pushAllRx_of_full (bs : List Byte) (s : State) (h : s.rxi.val = 8) : pushAllRx bs s = s := by
  induction bs with
  | nil => rfl
  | cons b bs ih => rw [pushAllRx_cons, pushRx_of_eq b s h, ih]

/-! ### Transport and templates -/

/-- The answer drawn for a `TWrite` is used up, from the state's list or from the free values. -/
theorem dropWriteAnswer_eq (s : State) :
    dropWriteAnswer s =
      { s with writeAnswers := s.writeAnswers.tail, draws := s.draws + (if s.writeAnswers.isEmpty then 1 else 0) } := by
  unfold dropWriteAnswer
  rcases h : s.writeAnswers <;> simp [setWriteAnswers, addDraw, h]

/-- The answer drawn for a `TRead` is used up. -/
theorem dropReadAnswer_eq (s : State) :
    dropReadAnswer s =
      { s with readAnswers := s.readAnswers.tail, draws := s.draws + (if s.readAnswers.isEmpty then 1 else 0) } := by
  unfold dropReadAnswer
  rcases h : s.readAnswers <;> simp [setReadAnswers, addDraw, h]

/-- Receiving depends on the receive side only. -/
theorem pushAllRx_congr (bs : List Byte) (s t : State) (hi : s.rxi = t.rxi) (hf : s.rxf = t.rxf) :
    (pushAllRx bs s).rxi = (pushAllRx bs t).rxi ∧ (pushAllRx bs s).rxf = (pushAllRx bs t).rxf := by
  induction bs generalizing s t with
  | nil => exact ⟨hi, hf⟩
  | cons b bs ih =>
    refine ih _ _ ?_ ?_ <;> unfold pushRx <;> simp only [hi, hf] <;> split <;> simp [hi, hf]

/-- Receiving in a state with the receive side of `s`. -/
theorem pushAllRx_of_same_rx (bs : List Byte) (u s : State) (hi : u.rxi = s.rxi) (hf : u.rxf = s.rxf) :
    pushAllRx bs u = { u with rxf := (pushAllRx bs s).rxf, rxi := (pushAllRx bs s).rxi } := by
  obtain ⟨h1, h2⟩ := pushAllRx_congr bs u s hi hf
  rw [pushAllRx_frame, h1, h2]

/-- What `TWrite` leaves, field by field. -/
theorem transportWrite_eq (bytes : List Byte) (s : State) :
    transportWrite bytes s =
      { s with
        rxf := (pushAllRx (writeAnswer s).arrived s).rxf
        rxi := (pushAllRx (writeAnswer s).arrived s).rxi
        calls := s.calls ++ [.write bytes]
        delivered := s.delivered ++ deliveredPart (writeAnswer s).outcome bytes
        writeAnswers := s.writeAnswers.tail
        draws := s.draws + (if s.writeAnswers.isEmpty then 1 else 0) } := by
  rw [transportWrite, dropWriteAnswer_eq]
  exact pushAllRx_of_same_rx _ _ s rfl rfl

/-- What `TRead` leaves, field by field. -/
theorem transportRead_eq (t : Timeout) (s : State) :
    transportRead t s =
      { s with
        rxf := (pushAllRx (readAnswer s).arrived s).rxf
        rxi := (pushAllRx (readAnswer s).arrived s).rxi
        calls := s.calls ++ [.read 8 t]
        readAnswers := s.readAnswers.tail
        draws := s.draws + (if s.readAnswers.isEmpty then 1 else 0) } := by
  rw [transportRead, dropReadAnswer_eq]
  exact pushAllRx_of_same_rx _ _ s rfl rfl

/-- What `BUILD`, `SER`, `TWrite` leave together (43_commands.md R151). -/
theorem sendRequest_eq (op a : Byte) (s : State) :
    sendRequest op a s =
      { s with
        txf := buildRequest op a 0 0 0
        txi := 8
        acc := sum16 op a 0 0 0
        rxf := (pushAllRx (writeAnswer s).arrived s).rxf
        rxi := (pushAllRx (writeAnswer s).arrived s).rxi
        emitted := s.emitted ++ (buildRequest op a 0 0 0).toList
        calls := s.calls ++ [.write (buildRequest op a 0 0 0).toList]
        delivered := s.delivered ++ deliveredPart (writeAnswer s).outcome (buildRequest op a 0 0 0).toList
        writeAnswers := s.writeAnswers.tail
        draws := s.draws + (if s.writeAnswers.isEmpty then 1 else 0) } := by
  unfold sendRequest
  rw [transportWrite_eq, buildFrame_eq, finishTx_eq]
  simp only [remainingTxBytes, serialize_eq_toList]
  obtain ⟨h1, h2⟩ := pushAllRx_congr (writeAnswer s).arrived
    { s with
      txf := buildRequest op a 0 0 0
      txi := 8
      acc := sum16 op a 0 0 0
      emitted := s.emitted ++ (buildRequest op a 0 0 0).toList } s rfl rfl
  rw [← h1, ← h2]
  rfl

theorem rxc_iff (s : State) : rxc s = true ↔ s.rxi.val = 8 := by
  simp [rxc]

theorem txv_iff (s : State) : txv s = true ↔ s.txi.val < 8 := by
  simp [txv]

/-- The end of a response-bearing command: the status byte of a full register, else `Err(TransportError)`; nothing yet if
the read never returns. -/
theorem receiveStatus_eq (t : Timeout) (s : State) :
    receiveStatus t s = setResult
      (if (readAnswer s).returns then
        if (transportRead t s).rxi.val = 8 then .okByte (transportRead t s).rxf[2] else .err .transportError
      else .pending) (transportRead t s) := by
  by_cases hr : (readAnswer s).returns <;> by_cases h : (transportRead t s).rxi.val = 8 <;>
    simp [receiveStatus, rxc, receivedStatus, h, hr]

/-- What `RESET` leaves. -/
theorem resetCodec_eq (s : State) :
    resetCodec s =
      { s with
        txf := Config.freeTxf s.draws
        txi := 8
        acc := Config.freeAcc s.draws
        rxf := Config.freeRxf s.draws
        rxi := 0
        draws := s.draws + 1 } := rfl

end Sys2Proof.Machine
end

