-- ==== Sys2Proof/Laws/Commands.lean ====
section
/-! SUPPORT. What the two command templates and the eleven commands leave (43_commands.md R151, R152, R168). -/

namespace Sys2Proof.Machine

@[simp] theorem writeAnswer_clearRx (s : State) : writeAnswer (clearRx s) = writeAnswer s := rfl

/-- The read of a response-bearing command gets the transport's answer to it. -/
@[simp] theorem readAnswer_sendRequest (op a : Byte) (s : State) :
    readAnswer (sendRequest op a s) = commandReadAnswer s := by
  simp [sendRequest_eq, commandReadAnswer, dropWriteAnswer_eq, readAnswer]

/-- `SendRecv` after a successful write. -/
theorem sendRecv_of_sent (op a : Byte) (t : Timeout) (s : State) (h : (writeAnswer s).outcome = .sent) :
    sendRecv op a t s = receiveStatus t (sendRequest op a (clearRx s)) := by
  simp [sendRecv, h]

/-- `SendRecv` after a write that failed or does not return: no read. -/
theorem sendRecv_of_not_sent (op a : Byte) (t : Timeout) (s : State) (h : (writeAnswer s).outcome ≠ .sent) :
    sendRecv op a t s = setResult (writeResult (writeAnswer s).outcome) (sendRequest op a (clearRx s)) := by
  unfold sendRecv
  split <;> simp_all [writeResult]

/-- What `SendRecv` leaves after a successful write, field by field (43_commands.md R152). -/
theorem sendRecv_sent_eq (op a : Byte) (t : Timeout) (s : State) (h : (writeAnswer s).outcome = .sent) :
    sendRecv op a t s =
      { s with
        txf := buildRequest op a 0 0 0
        txi := 8
        acc := sum16 op a 0 0 0
        rxf := (pushAllRx (commandArrivals s) (clearRx s)).rxf
        rxi := (pushAllRx (commandArrivals s) (clearRx s)).rxi
        result :=
          if (commandReadAnswer s).returns then
            if (pushAllRx (commandArrivals s) (clearRx s)).rxi.val = 8
              then .okByte (pushAllRx (commandArrivals s) (clearRx s)).rxf[2] else .err .transportError
          else .pending
        emitted := s.emitted ++ (buildRequest op a 0 0 0).toList
        calls := s.calls ++ [.write (buildRequest op a 0 0 0).toList, .read 8 t]
        delivered := s.delivered ++ (buildRequest op a 0 0 0).toList
        writeAnswers := s.writeAnswers.tail
        readAnswers := s.readAnswers.tail
        draws := s.draws + (if s.writeAnswers.isEmpty then 1 else 0) + (if s.readAnswers.isEmpty then 1 else 0) } := by
  have hc : readAnswer (sendRequest op a (clearRx s)) = commandReadAnswer s := by
    rw [readAnswer_sendRequest]
    simp [commandReadAnswer, dropWriteAnswer_eq, readAnswer, clearRx]
  rw [sendRecv_of_sent op a t s h, receiveStatus_eq, transportRead_eq, hc]
  obtain ⟨h1, h2⟩ := pushAllRx_congr (commandReadAnswer s).arrived (sendRequest op a (clearRx s))
    (pushAllRx (writeAnswer s).arrived (clearRx s)) (by rw [sendRequest_eq]; rfl) (by rw [sendRequest_eq]; rfl)
  rw [h1, h2, ← pushAllRx_append]
  change setResult (if (commandReadAnswer s).returns then if (pushAllRx (commandArrivals s) (clearRx s)).rxi.val = 8
    then .okByte (pushAllRx (commandArrivals s) (clearRx s)).rxf[2] else .err .transportError else .pending) _ = _
  rw [sendRequest_eq, writeAnswer_clearRx, h]
  simp [setResult, clearRx, deliveredPart, commandArrivals, setRxi]
/-- Noting a blocked agent changes `blocked` only. -/
theorem noteBlocked_eq (who : Issuer) (s : State) :
    noteBlocked who s = { s with blocked := if s.result = .pending then s.blocked ++ [who] else s.blocked } := by
  unfold noteBlocked
  split <;> simp_all [setBlocked]

/-- A command without a response is `SendOnly` with its opcode and operand byte. -/
theorem exec_of_keepsReceiving (i : Instr) (k : Command) (a : Byte) (s : State) (h : commandOf i = some (k, a))
    (hk : keepsReceiving i = true) : exec i s = .next (sendOnly (commandOpcode Config.vocab k) a s) := by
  cases i <;> simp [commandOf, keepsReceiving] at h hk <;> obtain ⟨rfl, rfl⟩ := h <;> rfl

/-- A response-bearing command is `SendRecv` with its opcode, operand byte 0 and the caller's timeout. -/
theorem exec_of_not_keepsReceiving (i : Instr) (k : Command) (a : Byte) (s : State) (h : commandOf i = some (k, a))
    (hk : keepsReceiving i = false) :
    ∃ t, a = 0 ∧ exec i s = .next (sendRecv (commandOpcode Config.vocab k) 0 t s) := by
  cases i <;> simp [commandOf, keepsReceiving] at h hk <;> obtain ⟨rfl, rfl⟩ := h <;> exact ⟨_, rfl, rfl⟩

end Sys2Proof.Machine
end

