-- ==== Sys2Proof/Laws/PerInstr.lean ====
section
/-! SUPPORT. Facts about every instruction as syntax, one lemma per constructor. -/

/-- Selecting an instruction by its name and operands selects that instruction (30_encoding.md R74, R75). -/
def Sys2Proof.Laws.NamedRoundTrip.Statement (i : Sys2Proof.Instr) : Prop :=
  ∀ v : Sys2Proof.Vocab, Sys2Proof.decode v (Sys2Proof.encodeNamed i) = .instr i

namespace Sys2Proof.Laws.NamedRoundTrip

theorem cmdOpen : Statement .cmdOpen := fun _ => rfl
theorem cmdClose : Statement .cmdClose := fun _ => rfl
theorem cmdLed (state : Byte) : Statement (.cmdLed state) := fun _ => rfl
theorem cmdIsPressed (timeout : Timeout) : Statement (.cmdIsPressed timeout) := fun _ => rfl
theorem cmdEnroll (slot : Byte) : Statement (.cmdEnroll slot) := fun _ => rfl
theorem cmdDeleteOne (slot : Byte) : Statement (.cmdDeleteOne slot) := fun _ => rfl
theorem cmdDeleteAll : Statement .cmdDeleteAll := fun _ => rfl
theorem cmdUserCount (timeout : Timeout) : Statement (.cmdUserCount timeout) := fun _ => rfl
theorem cmdIdentify (timeout : Timeout) : Statement (.cmdIdentify timeout) := fun _ => rfl
theorem cmdLastId (timeout : Timeout) : Statement (.cmdLastId timeout) := fun _ => rfl
theorem cmdCancelEnroll : Statement .cmdCancelEnroll := fun _ => rfl
theorem request (op p0 p1 p2 p3 : Byte) : Statement (.request op p0 p1 p2 p3) := fun _ => rfl
theorem response (b0 b1 b2 b3 b4 b5 b6 b7 : Byte) : Statement (.response b0 b1 b2 b3 b4 b5 b6 b7) := fun _ => rfl
theorem csum (op p0 p1 p2 p3 : Byte) : Statement (.csum op p0 p1 p2 p3) := fun _ => rfl
theorem build (op p0 p1 p2 p3 : Byte) : Statement (.build op p0 p1 p2 p3) := fun _ => rfl
theorem txpop : Statement .txpop := fun _ => rfl
theorem ser : Statement .ser := fun _ => rfl
theorem rxclr : Statement .rxclr := fun _ => rfl
theorem rxpush (b : Byte) : Statement (.rxpush b) := fun _ => rfl
theorem parse : Statement .parse := fun _ => rfl
theorem rdstat : Statement .rdstat := fun _ => rfl
theorem reset : Statement .reset := fun _ => rfl

end Sys2Proof.Laws.NamedRoundTrip
end

