-- ==== Sys2Proof/Laws/Step.lean ====
section
/-! SUPPORT. What the transport calls by hand, the performing of one issued event, a step and a run can do. -/

namespace Sys2Proof.Machine

/-- An instruction issued by name decodes to itself. -/
@[simp] theorem performEvent_named (i : Instr) (s : State) : performEvent (.issue (encodeNamed i)) s = exec i s := by
  have h : decode Config.vocab (encodeNamed i) = .instr i := by cases i <;> rfl
  simp [performEvent, h]

/-- `TRead` by hand (43_commands.md R150). -/
theorem execTRead_eq (t : Timeout) (s : State) :
    execTRead t s = .next (setResult
      (if (readAnswer s).returns then
        if (transportRead t s).rxi.val = 8 then .ok else .err .transportError
      else .pending) (transportRead t s)) := by
  by_cases hr : (readAnswer s).returns <;> by_cases h : (transportRead t s).rxi.val = 8 <;>
    simp [execTRead, rxc, hr, h]

/-- An agent that is not blocked: its event is performed, and it is blocked if a transport call does not return. -/
theorem performIssued_of_not_blocked (e : Issued) (s t : State) (hb : e.issuer ∉ s.blocked)
    (h : performEvent e.event s = .next t) : performIssued e s = .next (noteBlocked e.issuer t) := by
  simp [performIssued, hb, h]

/-- All that a step which does not stop can do. -/
theorem step_cases (s t : State) (h : step s = .next t) :
    (s.issued = [] ∧ t = s) ∨
      ∃ e rest, s.issued = e :: rest ∧
        ((e.issuer ∈ s.blocked ∧ t = setIssued rest s) ∨
          (e.issuer ∉ s.blocked ∧
            ∃ u, performEvent e.event (setIssued rest s) = .next u ∧ t = noteBlocked e.issuer u)) := by
  unfold step at h
  split at h
  · cases h; exact .inl ⟨‹_›, rfl⟩
  · rename_i e rest he
    refine .inr ⟨e, rest, he, ?_⟩
    unfold performIssued at h
    split at h
    · cases h; exact .inl ⟨‹_›, rfl⟩
    · split at h
      · cases h; exact .inr ⟨‹_›, _, ‹_›, rfl⟩
      · cases h
      · cases h

/-- A run goes on from where its first part ended. -/
theorem runIssued_append (es fs : List Issued) (s t : State) (h : runIssued es s = some t) :
    runIssued (es ++ fs) s = runIssued fs t := by
  induction es generalizing s with
  | nil => cases h; rfl
  | cons e es ih =>
    simp only [List.cons_append, runIssued] at h ⊢
    split at h
    · exact ih _ h
    · cases h
    · cases h

end Sys2Proof.Machine
end

