-- ==== Sys2Proof/Tests/Slice0.lean ====
section
/-! SUPPORT. Tests of the model against the spec's own vectors (spec/95_test_vectors.md; the opcode bytes there are
illustrations and so are they here), and for every statement with hypotheses a concrete state and operands that meet
them. -/

namespace Sys2Proof.Tests

open Sys2Proof Sys2Proof.Machine Sys2Proof.Claims

/-! ### Helpers -/

/-- The illustrative binding of 95_test_vectors.md section 2.5; the AckCode values are arbitrary and distinct. -/
def illustration : Vocab :=
  { opOpen := 0x45, opClose := 0x46, opLed := 0x33, opIsPressed := 0x30, opEnroll := 0x2A, opDeleteOne := 0x10
    opDeleteAll := 0x0C, opUserCount := 0x09, opIdentify := 0x0D, opLastId := 0x0E, opCancelEnroll := 0x2B
    ackSuccess := 0x01, ackFail := 0x02, ackFull := 0x03, ackNoUser := 0x04, ackUserExists := 0x05, ackTimeout := 0x06
    ackMalformed := 0x07, ackInterrupted := 0x08, ackInvalidParam := 0x09, ackUnsupported := 0x0A
    ackOverexposed := 0x0B, ackDuplicate := 0x0C, ackIncompletePress := 0x0D, ackPoorQuality := 0x0E }

/-- A binding in which two commands share an opcode, and one AckCode shares the value 0xB1. -/
def clashing : Vocab := { illustration with opClose := 0x45, ackSuccess := 0xB1 }

/-- Reset, then the transport's answers for one write, in which `ws` arrive, and one read. -/
def answering (o : WriteOutcome) (ws rs : List Byte) (returns : Bool) : State :=
  { State.reset with writeAnswers := [⟨o, ws⟩], readAnswers := [⟨rs, returns⟩] }

/-- Nothing arrives in the write, and the read returns. -/
def answered (o : WriteOutcome) (bs : List Byte) : State := answering o [] bs true

/-- The first caller. -/
def me : Issuer := .host 0

/-- Vector B1 built, with `i` of its bytes emitted. -/
def sending (i : Index) : State := { State.reset with txf := #v[0xF5, 0x2A, 0x03, 0, 0, 0, 0x2D, 0xF5], txi := i }

/-- Vector X5 in the receive register, with `i` bytes counted as received. -/
def holding (i : Index) : State := { State.reset with rxf := #v[0xF5, 0x09, 0xB1, 0, 0, 0, 0xBA, 0xF5], rxi := i }

/-- Issuing one code. -/
def issuing (c : Code) : State := { State.reset with issued := [⟨me, .issue c⟩] }

/-- The result of a step's next state. -/
def resultOf (o : Host.Outcome State Fault Refusal) : Option Result :=
  match o with
  | .next t => some t.result
  | .fault _ => none
  | .refused _ => none

/-- What `look` shows of a step's next state. -/
def seen {α : Type} (look : State → α) (o : Host.Outcome State Fault Refusal) : Option α :=
  match o with
  | .next t => some (look t)
  | .fault _ => none
  | .refused _ => none

/-! ### Well-formedness refuses -/

/-- One command's frame under two commands is ambiguous. -/
theorem test_wellFormed_refuses_cmdOpen : wellFormed clashing .cmdOpen = false := by decide
theorem test_wellFormed_refuses_cmdClose : wellFormed clashing .cmdClose = false := by decide

/-- A general request that is exactly one command's frame. -/
theorem test_wellFormed_refuses_request : wellFormed illustration (.request 0x45 0 0 0 0) = false := by decide
theorem test_wellFormed_refuses_request_led : wellFormed illustration (.request 0x33 0x07 0 0 0) = false := by decide

/-- Each other command when its opcode is also `CMD_LED`'s, whose operand may be any byte. -/
def allLed : Vocab :=
  { illustration with
    opIsPressed := 0x33, opEnroll := 0x33, opDeleteOne := 0x33, opDeleteAll := 0x33, opUserCount := 0x33
    opIdentify := 0x33, opLastId := 0x33, opCancelEnroll := 0x33 }

theorem test_wellFormed_refuses_led_clashes :
    [Instr.cmdLed 7, .cmdIsPressed ⟨0⟩, .cmdEnroll 7, .cmdDeleteOne 7, .cmdDeleteAll, .cmdUserCount ⟨0⟩,
      .cmdIdentify ⟨0⟩, .cmdLastId ⟨0⟩, .cmdCancelEnroll].all (fun i => !wellFormed allLed i) = true := by decide

/-! ### Decoding, words written out from the spec's encodings -/

/-- `11110101 oooooooo 0.. kkkkkkkk 11110101`, H1. -/
theorem test_decode_cmdOpen :
    decode illustration (tableCode 64 0b1111010101000101000000000000000000000000000000000100010111110101) =
      .instr .cmdOpen := by decide

/-- H2. -/
theorem test_decode_cmdClose :
    decode illustration (tableCode 64 0b1111010101000110000000000000000000000000000000000100011011110101) =
      .instr .cmdClose := by decide

/-- H3: operand 07, checksum 3A. -/
theorem test_decode_cmdLed :
    decode illustration (tableCode 64 0b1111010100110011000001110000000000000000000000000011101011110101) =
      .instr (.cmdLed 0x07) := by decide

/-- H5, with the caller's timeout beside the frame. -/
theorem test_decode_cmdIsPressed :
    decode illustration (.frame .hostToModule [0xF5, 0x30, 0, 0, 0, 0, 0x30, 0xF5] ⟨7⟩) =
      .instr (.cmdIsPressed ⟨7⟩) := by decide

/-- H6, the 64-bit pattern of vector B1. -/
theorem test_decode_cmdEnroll :
    decode illustration (tableCode 64 0b1111010100101010000000110000000000000000000000000010110111110101) =
      .instr (.cmdEnroll 0x03) := by decide

/-- H7: the sum is 0x0100, the checksum 00. -/
theorem test_decode_cmdDeleteOne :
    decode illustration (.frame .hostToModule [0xF5, 0x10, 0xF0, 0, 0, 0, 0x00, 0xF5] ⟨0⟩) =
      .instr (.cmdDeleteOne 0xF0) := by decide

/-- H8. -/
theorem test_decode_cmdDeleteAll :
    decode illustration (.frame .hostToModule [0xF5, 0x0C, 0, 0, 0, 0, 0x0C, 0xF5] ⟨0⟩) =
      .instr .cmdDeleteAll := by decide

/-- H9. -/
theorem test_decode_cmdUserCount :
    decode illustration (.frame .hostToModule [0xF5, 0x09, 0, 0, 0, 0, 0x09, 0xF5] ⟨7⟩) =
      .instr (.cmdUserCount ⟨7⟩) := by decide

/-- H11. -/
theorem test_decode_cmdIdentify :
    decode illustration (.frame .hostToModule [0xF5, 0x0D, 0, 0, 0, 0, 0x0D, 0xF5] ⟨7⟩) =
      .instr (.cmdIdentify ⟨7⟩) := by decide

/-- H13. -/
theorem test_decode_cmdLastId :
    decode illustration (.frame .hostToModule [0xF5, 0x0E, 0, 0, 0, 0, 0x0E, 0xF5] ⟨7⟩) =
      .instr (.cmdLastId ⟨7⟩) := by decide

/-- H14. -/
theorem test_decode_cmdCancelEnroll :
    decode illustration (.frame .hostToModule [0xF5, 0x2B, 0, 0, 0, 0, 0x2B, 0xF5] ⟨0⟩) =
      .instr .cmdCancelEnroll := by decide

/-- Vector B7. -/
theorem test_decode_request :
    decodeTableWord 64 0b1111010100010010001101000101011001111000100110101010111011110101 =
      some (.request 0x12 0x34 0x56 0x78 0x9A) := by decide

/-- Vector X9: no marker, no checksum, still a response. -/
theorem test_decode_response :
    decodeTableWord 64 0b0000000001110111001010100001000100100010001100111001100100000000 =
      some (.response 0x00 0x77 0x2A 0x11 0x22 0x33 0x99 0x00) := by decide

theorem test_decode_csum :
    decode illustration (.named .csum [0x12, 0x34, 0x56, 0x78, 0x9A] none) = .instr (.csum 0x12 0x34 0x56 0x78 0x9A) := by
  decide

theorem test_decode_build :
    decode illustration (.named .build [0x12, 0x34, 0x56, 0x78, 0x9A] none) =
      .instr (.build 0x12 0x34 0x56 0x78 0x9A) := by decide

theorem test_decode_operations_without_operands :
    [Mnemonic.txpop, .ser, .rxclr, .parse, .rdstat, .reset].map (fun m => decode illustration (.named m [] none)) =
      [.instr .txpop, .instr .ser, .instr .rxclr, .instr .parse, .instr .rdstat, .instr .reset] := by decide

theorem test_decode_rxpush : decode illustration (.named .rxpush [0xAA] none) = .instr (.rxpush 0xAA) := by decide

/-- Every rejection has a code that meets it: 30_encoding.md R73, R60, R61, R74. -/
theorem test_decode_rejects :
    decode illustration (.frame .hostToModule [0xF5, 0x45, 0, 0, 0, 0x45, 0xF5] ⟨0⟩) = .rejected (.badLength 7) ∧
    decode illustration (.frame .hostToModule [0xF5, 0x45, 0, 0, 0, 0, 0x45, 0xF4] ⟨0⟩) = .rejected .badMarkers ∧
    decode illustration (.frame .hostToModule [0xF5, 0x45, 0, 0, 0, 0, 0x46, 0xF5] ⟨0⟩) = .rejected .badChecksum ∧
    decode illustration (.named .csum [0x45, 0, 0, 0] none) = .rejected (.badOperands .csum) ∧
    decode illustration (.named .txpop [] (some ⟨1⟩)) = .rejected (.badOperands .txpop) := by decide

/-- A nonzero byte among the unused parameters is no command of the vocabulary (30_encoding.md R67). -/
theorem test_decode_unused_parameter_set :
    decode illustration (.frame .hostToModule [0xF5, 0x45, 0x01, 0, 0, 0, 0x46, 0xF5] ⟨0⟩) =
      .instr (.request 0x45 0x01 0 0 0) := by decide

/-! ### Operations on the spec's vectors -/

/-- K4: the largest sum, 0x04FB. -/
theorem test_csum_truncates :
    seen (fun t => (t.acc, t.result)) (exec (.csum 0xFF 0xFF 0xFF 0xFF 0xFF) State.reset) = some (0x04FB, .byte 0xFB) := by
  decide

/-- K20: a sum, no exclusive-or. -/
theorem test_csum_is_no_xor : resultOf (exec (.csum 0x01 0x01 0 0 0) State.reset) = some (.byte 0x02) := by decide

/-- B6: operand bytes equal to the marker are stored unchanged. -/
theorem test_build_stores_markers :
    seen (fun t => (t.txf, t.txi, t.acc)) (exec (.build 0x0B 0xF5 0xF5 0xF5 0xF5) (sending 3)) =
      some (#v[0xF5, 0x0B, 0xF5, 0xF5, 0xF5, 0xF5, 0xDF, 0xF5], 0, 0x03DF) := by decide

/-- The eighth pop of vector B1. -/
theorem test_txpop_last :
    seen (fun t => (t.txi, t.result, txv t)) (exec .txpop (sending 7)) = some (8, .popped (some 0xF5), false) := by decide

/-- The ninth. -/
theorem test_txpop_none : exec .txpop (sending 8) = .next { sending 8 with result := .popped none } := rfl

/-- `SER` after three pops of B1. -/
theorem test_ser_rest :
    seen (fun t => (t.txi, t.result)) (exec .ser (sending 3)) = some (8, .bytes [0x00, 0x00, 0x00, 0x2D, 0xF5]) := by
  decide

/-- `SER` twice in a row: the second is empty. -/
theorem test_ser_empty : resultOf (exec .ser (sending 8)) = some (.bytes []) := by decide

/-- X13. -/
theorem test_rxclr : seen (fun t => (t.rxi, t.rxf, rxc t)) (exec .rxclr (holding 8)) =
    some (0, (holding 8).rxf, false) := by decide

theorem test_rxpush_first : seen (fun t => (t.rxi, t.rxf[0])) (exec (.rxpush 0xF5) State.reset) = some (1, 0xF5) := by
  decide

/-- X8: a ninth byte is discarded. -/
theorem test_rxpush_ninth : exec (.rxpush 0xAA) (holding 8) = .next (holding 8) := rfl

/-- X5. -/
theorem test_parse : resultOf (exec .parse (holding 8)) = some (.frame #v[0xF5, 0x09, 0xB1, 0, 0, 0, 0xBA, 0xF5]) := by
  decide

/-- X4. -/
theorem test_parse_short : exec .parse (holding 7) = .next { holding 7 with result := .raised .shortFrame } := rfl

theorem test_rdstat : resultOf (exec .rdstat (holding 8)) = some (.byte 0xB1) := by decide

/-- X3: the status byte has arrived, the frame has not. -/
theorem test_rdstat_short : resultOf (exec .rdstat (holding 3)) = some (.raised .shortFrame) := by decide

/-- Z5. -/
theorem test_reset_idles : seen (fun t => (txv t, rxc t)) (exec .reset (sending 3)) = some (false, false) := by decide

/-- T4: five bytes 0xF5. -/
theorem test_request : resultOf (exec (.request 0xF5 0xF5 0xF5 0xF5 0xF5) State.reset) =
    some (.frame #v[0xF5, 0xF5, 0xF5, 0xF5, 0xF5, 0xF5, 0xC9, 0xF5]) := by decide

theorem test_response : resultOf (exec (.response 0xF5 0x09 0x05 0 0 0 0x0E 0xF5) State.reset) =
    some (.response #v[0xF5, 0x09, 0x05, 0, 0, 0, 0x0E, 0xF5] 0x05) := by decide

/-- The field views of X5 (30_encoding.md R62). -/
theorem test_frame_fields :
    startMarker (holding 8).rxf = 0xF5 ∧ opcode (holding 8).rxf = 0x09 ∧ parameter (holding 8).rxf 0 = 0xB1 ∧
      parameter (holding 8).rxf 3 = 0x00 ∧ checksumByte (holding 8).rxf = 0xBA ∧ endMarker (holding 8).rxf = 0xF5 ∧
      markersOK (holding 8).rxf = true ∧ checksumOK (holding 8).rxf = true := by decide

/-- Vector B1 as a 64-bit word (30_encoding.md R61). -/
theorem test_frameWord : frameWord (buildRequest 0x2A 0x03 0 0 0) = 0xF52A030000002DF5 := by decide

/-! ### Commands: the two templates with the illustrative opcodes -/

/-- H4. -/
theorem test_sendOnly :
    (fun t : State => (t.result, t.calls, t.delivered)) (sendOnly 0x33 0xFF (answered .sent [])) =
      (.ok, [.write [0xF5, 0x33, 0xFF, 0, 0, 0, 0x32, 0xF5]], [0xF5, 0x33, 0xFF, 0, 0, 0, 0x32, 0xF5]) := by decide

/-- H15, with three bytes delivered before the failure. -/
theorem test_sendOnly_failed :
    (fun t : State => (t.result, t.calls.length, t.delivered, t.txi)) (sendOnly 0x45 0 (answered (.failed 3) [])) =
      (.err .transportError, 1, [0xF5, 0x45, 0x00], 8) := by decide

/-- H17 and program P5: bad checksum and markers, the value is returned all the same. -/
theorem test_sendRecv :
    (fun t : State => (t.result, t.rxi, t.calls))
      (sendRecv 0x09 0 ⟨5⟩ (answered .sent [0x00, 0x77, 0x2A, 0x11, 0x22, 0x33, 0x99, 0x00])) =
      (.okByte 0x2A, 8, [.write [0xF5, 0x09, 0, 0, 0, 0, 0x09, 0xF5], .read 8 ⟨5⟩]) := by decide

/-- Program P6: two bytes, then the read gives up. -/
theorem test_sendRecv_timeout :
    (fun t : State => (t.result, t.rxi)) (sendRecv 0x0D 0 ⟨5⟩ (answered .sent [0xF5, 0x0D])) =
      (.err .transportError, 2) := by decide

/-- H16: no read after a failed write. -/
theorem test_sendRecv_failed_write :
    (fun t : State => (t.result, t.calls.length)) (sendRecv 0x09 0 ⟨5⟩ (answered (.failed 0) [0xF5])) =
      (.err .transportError, 1) := by decide

/-- R168: a failed write makes no read, and `RXI` is what the transport pushed since the `RXCLR`. -/
theorem test_sendRecv_failed_write_arrivals :
    (fun t : State => (t.result, t.rxi, t.calls.length))
      (sendRecv 0x09 0 ⟨5⟩ { answering (.failed 2) [1, 2, 3] [4, 5] true with rxi := 8 }) =
      (.err .transportError, 3, 1) := by decide

/-- R168: a command without a response leaves the receive side collecting. -/
theorem test_sendOnly_arrivals :
    (fun t : State => (t.result, t.rxi, t.rxf[5])) (sendOnly 0x45 0 { answering .sent [9] [] true with rxi := 5 }) =
      (.ok, 6, 9) := by decide

/-- R210: the transport never answers, to the write or to the read. -/
theorem test_sendRecv_never :
    (fun t : State => (t.result, t.calls.length)) (sendRecv 0x09 0 ⟨5⟩ (answering (.never 4) [] [] true)) =
      (.pending, 1) ∧
    (fun t : State => (t.result, t.calls.length)) (sendRecv 0x09 0 ⟨5⟩ (answering .sent [] [1] false)) =
      (.pending, 2) := by decide

/-- H1 to H14 at the level of `exec`: which template, which operand byte. -/
theorem test_cmdOpen : resultOf (exec .cmdOpen (answered .sent [])) = some .ok := rfl
theorem test_cmdClose : resultOf (exec .cmdClose (answered .sent [])) = some .ok := rfl
theorem test_cmdLed : seen (fun t => (t.result, t.txf[2])) (exec (.cmdLed 0x07) (answered .sent [])) =
    some (.ok, 0x07) := rfl
theorem test_cmdEnroll : seen (fun t => (t.result, t.txf[2])) (exec (.cmdEnroll 0x03) (answered .sent [])) =
    some (.ok, 0x03) := rfl
theorem test_cmdDeleteOne : seen (fun t => (t.result, t.txf[2])) (exec (.cmdDeleteOne 0xF0) (answered .sent [])) =
    some (.ok, 0xF0) := rfl
theorem test_cmdDeleteAll : resultOf (exec .cmdDeleteAll (answered (.failed 8) [])) = some (.err .transportError) := rfl
theorem test_cmdCancelEnroll : resultOf (exec .cmdCancelEnroll (answered .sent [])) = some .ok := rfl
theorem test_cmdIsPressed : resultOf (exec (.cmdIsPressed ⟨1⟩)
    (answered .sent [0xF5, 0x30, 0xB1, 0, 0, 0, 0xE1, 0xF5])) = some (.okByte 0xB1) := rfl
theorem test_cmdUserCount : resultOf (exec (.cmdUserCount ⟨1⟩)
    (answered .sent [0xF5, 0x09, 0x00, 0, 0, 0, 0x09, 0xF5])) = some (.okByte 0x00) := rfl
theorem test_cmdIdentify : resultOf (exec (.cmdIdentify ⟨1⟩) (answered .sent [])) = some (.err .transportError) := rfl
theorem test_cmdLastId : resultOf (exec (.cmdLastId ⟨1⟩)
    (answered .sent [0xF5, 0x0E, 0x07, 0, 0, 0, 0x15, 0xF5])) = some (.okByte 0x07) := rfl

/-- S7. -/
theorem test_ackDecode : ackDecode illustration 0xB1 = some .fingerNotPresent ∧ ackDecode illustration 0x02 = some .fail ∧
    ackDecode illustration 0x77 = none ∧ ackDecode clashing 0xB1 = none := by decide

/-! ### The step -/

theorem test_step_named : resultOf (step (issuing (.named .csum [0x80, 0x80, 0, 0, 0] none))) = some (.byte 0x00) := by
  decide

theorem test_step_fetches_response :
    resultOf (step (State.reset.withFetchWord 64 0xF5090500000010F5)) =
      some (.response #v[0xF5, 0x09, 0x05, 0, 0, 0, 0x10, 0xF5] 0x05) := by decide

theorem test_step_refuses :
    step (issuing (.named .rxpush [] none)) = .refused (.undecodable (.badOperands .rxpush)) := rfl

/-- R210: the caller is blocked when its write does not return. -/
theorem test_step_blocks :
    seen (fun t => (t.blocked, t.delivered, t.result))
      (step { answering (.never 1) [] [] true with issued := [⟨me, .twrite [7, 8]⟩] }) = some ([me], [7], .pending) := rfl

/-- R150: a read by hand that fills the register. -/
theorem test_step_tread :
    seen (fun t => (t.result, t.rxi)) (step { answered .sent [1, 2] with rxi := 6, issued := [⟨me, .tread ⟨3⟩⟩] }) =
      some (.ok, 8) := rfl

/-! ### Witnesses: the hypotheses of every statement are met, together -/

theorem test_witness_AfterResetNothingCanBeRead : ∃ t, exec .reset (sending 3) = .next t := ⟨_, rfl⟩

theorem test_witness_AccumulatorNeverOverflows_csum :
    ∃ t, exec (.csum 0xFF 0xFF 0xFF 0xFF 0xFF) State.reset = .next t ∧ t.acc.toNat = 1275 := ⟨_, rfl, by decide⟩

theorem test_witness_AccumulatorNeverOverflows_build :
    ∃ t, exec (.build 0 0 0 0 0) State.reset = .next t ∧ t.acc.toNat = 0 := ⟨_, rfl, by decide⟩

theorem test_witness_ChecksumFormsAgreeInAnyOrder :
    [(0x12 : Byte), 0x34, 0x56, 0x78, 0x9A].Perm [0x9A, 0x78, 0x56, 0x34, 0x12] := by decide

theorem test_witness_OneChangedByteChangesChecksum : (0xFF : Byte) ≠ 0x00 ∧ (0x00 : Byte) ≠ 0xFF := by decide

theorem test_witness_TxpopEmitsNextByte :
    (sending 0).txi.val < 8 ∧ (sending 7).txi.val < 8 ∧ (sending 7).txi.val = 7 ∧ (sending 8).txi.val = 8 := by decide

theorem test_witness_SerEmitsRemainingBytes :
    (sending 7).txi.val + 0 < 8 ∧ (sending 0).txi.val + 7 < 8 ∧ ∃ t, exec (.build 1 2 3 4 5) State.reset = .next t :=
  ⟨by decide, by decide, _, rfl⟩

theorem test_witness_NoResendWithoutBuild :
    (sending 8).txi.val = 8 ∧ ∃ t, exec (.build 1 2 3 4 5) (sending 8) = .next t ∧ t.txi.val < 8 :=
  ⟨rfl, _, rfl, by decide⟩

theorem test_witness_TxfIsWrittenOnlyAsBuiltFrame :
    (∃ t, exec (.build 1 2 3 4 5) State.reset = .next t ∧ Instr.build 1 2 3 4 5 ≠ .reset) ∧
    ∃ t, exec (.cmdLed 1) State.reset = .next t ∧ Instr.cmdLed 1 ≠ .reset := ⟨⟨_, rfl, by decide⟩, _, rfl, by decide⟩

/-- Three frames: one sent whole, one built and never started, one partly sent. -/
def wireRun : List Instr := [.build 1 2 3 4 5, .ser, .build 9 9 9 9 9, .rxclr, .build 0x2A 3 0 0 0, .txpop]

/-- R118: the frame never started is none of those that reach the wire. -/
theorem test_startedFrames : startedFrames wireRun = [buildRequest 1 2 3 4 5, buildRequest 0x2A 3 0 0 0] ∧
    startedFrames [.build 1 2 3 4 5, .reset, .ser] = [] ∧ startedFrames [.build 1 2 3 4 5] = [] := by decide

theorem test_witness_WireCarriesWholeFramesInOrder_partly :
    State.reset.txi.val = 8 ∧ ∃ t, runHazardFree wireRun State.reset = some t ∧ t.txi.val = 1 ∧ t.emitted.length = 9 :=
  ⟨rfl, _, rfl, by decide, by decide⟩

/-- The last frame finished, and the last frame built and not started. -/
theorem test_witness_WireCarriesWholeFramesInOrder_whole :
    (∃ t, runHazardFree [.build 1 2 3 4 5, .ser, .reset] State.reset = some t ∧ t.txi.val = 8) ∧
    ∃ t, runHazardFree [.build 1 2 3 4 5] State.reset = some t ∧ t.txi.val = 0 := ⟨⟨_, rfl, rfl⟩, _, rfl, rfl⟩

/-- The hazard is one: such a run is not counted. -/
theorem test_witness_hazard : runHazardFree [.build 1 2 3 4 5, .txpop, .build 1 2 3 4 5] State.reset = none := rfl

theorem test_witness_RxpushStoresOrDiscards :
    (holding 0).rxi.val < 8 ∧ (holding 7).rxi.val < 8 ∧ (holding 7).rxi.val = 7 ∧ (holding 8).rxi.val = 8 := by decide

theorem test_witness_ParseReturnsReceivedFrame : (holding 8).rxi.val = 8 ∧ (holding 7).rxi.val < 8 := by decide

theorem test_witness_RdstatReturnsStatusByte :
    (holding 8).rxi.val = 8 ∧ (holding 7).rxi.val < 8 ∧ (holding 0).rxi.val < 8 := by decide

theorem test_witness_ShortFrameOnlyFromReadsAndPrecise :
    (holding 7).rxi.val < 8 ∧ ∃ t, exec .rdstat (holding 7) = .next t ∧ t.result = .raised .shortFrame :=
  ⟨by decide, _, rfl, rfl⟩

/-- Nine pushes and a transmit-side operation among them. -/
def pushing : List Instr :=
  [.rxpush 1, .rxpush 2, .rxpush 3, .build 1 2 3 4 5, .rxpush 4, .rxpush 5, .rxpush 6, .rxpush 7, .rxpush 8, .rxpush 9]

theorem test_witness_FirstEightPushedBytesAreTheFrame :
    ∃ s, exec .rxclr (holding 5) = .next s ∧ (∀ i ∈ pushing, keepsReceiving i = true) ∧
      (∃ t, runInstrs pushing s = some t) ∧
      receivedBytes pushing s = 1 :: 2 :: 3 :: 4 :: 5 :: 6 :: 7 :: 8 :: [9] :=
  ⟨_, rfl, by decide, ⟨_, rfl⟩, rfl⟩

/-- Bytes that arrive inside a command count as pushed. -/
theorem test_witness_FirstEightPushedBytesAreTheFrame_command :
    ∃ s, exec .rxclr (answering .sent [1, 2] [] true) = .next s ∧
      (∃ t, runInstrs [.cmdOpen, .rxpush 3] s = some t ∧ t.rxi.val = 3) ∧
      receivedBytes [.cmdOpen, .rxpush 3] s = [1, 2, 3] := ⟨_, rfl, ⟨_, rfl, rfl⟩, rfl⟩

theorem test_witness_SerializedFrameRoundTrips :
    (#v[0xF5, 0x12, 0x34, 0x56, 0x78, 0x9A, 0xAE, 0xF5] : Vector Byte 8).toList =
      serialize (buildRequest 0x12 0x34 0x56 0x78 0x9A) := by decide

theorem test_witness_TransmitAndReceiveSidesCommute : isTxOperation .txpop = true ∧ isRxOperation (.rxpush 1) = true := by
  decide

theorem test_witness_TransportOperationsLeaveTransmitSideAlone :
    Agent.transport ∈ issuers (.rxpush 1) ∧ ∃ t, exec (.rxpush 1) (sending 3) = .next t := ⟨by decide, _, rfl⟩

theorem test_witness_FlagsFollowTheIndices :
    (∃ t, exec .txpop (sending 7) = .next t ∧ txv t ≠ txv (sending 7)) ∧
    (∃ t, exec (.rxpush 1) (holding 7) = .next t ∧ rxc t ≠ rxc (holding 7)) ∧
    ∃ t, exec .cmdOpen { answering .sent [1] [] true with rxi := 7 } = .next t ∧
      rxc t ≠ rxc { answering .sent [1] [] true with rxi := 7 } ∧ commandOf .cmdOpen = some (.openModule, 0) :=
  ⟨⟨_, rfl, by decide⟩, ⟨_, rfl, by decide⟩, _, rfl, by decide, rfl⟩

theorem test_witness_ReadsAndClearsAreIdempotent :
    ∃ i : Instr, (i = .parse ∨ i = .rdstat ∨ i = .rxclr ∨ (∃ op p0 p1 p2 p3, i = .csum op p0 p1 p2 p3) ∨
      ∃ op p0 p1 p2 p3, i = .build op p0 p1 p2 p3) := ⟨.build 1 2 3 4 5, .inr (.inr (.inr (.inr ⟨1, 2, 3, 4, 5, rfl⟩)))⟩

theorem test_witness_SendOnlyCommands :
    (Instr.cmdLed 7, Config.vocab.opLed, (7 : Byte)) ∈ sendOnlyCommands 7 ∧
      (Instr.cmdCancelEnroll, Config.vocab.opCancelEnroll, (0 : Byte)) ∈ sendOnlyCommands 7 ∧
      (writeAnswer (answered .sent [])).outcome = .sent ∧ (writeAnswer (answered .sent [])).arrived = [] ∧
      (writeAnswer (answered (.failed 3) [])).outcome ≠ .sent ∧ writeReturns (answered (.failed 3) []) = true :=
  ⟨by simp [sendOnlyCommands], by simp [sendOnlyCommands], rfl, rfl, by decide, rfl⟩

/-- Bytes arrive in the write and in the read, and one more than a frame. -/
theorem test_witness_SendRecvCommandsReturnStatusByte :
    (Instr.cmdLastId ⟨5⟩, Config.vocab.opLastId) ∈ sendRecvCommands ⟨5⟩ ∧
      transportFair (answering .sent [1] [2, 3, 4, 5, 6, 7, 8, 9] true) = true ∧
      (writeAnswer (answering .sent [1] [2, 3, 4, 5, 6, 7, 8, 9] true)).outcome = .sent ∧
      commandArrivals (answering .sent [1] [2, 3, 4, 5, 6, 7, 8, 9] true) =
        1 :: 2 :: 3 :: 4 :: 5 :: 6 :: 7 :: 8 :: [9] := ⟨by simp [sendRecvCommands], rfl, rfl, rfl⟩

theorem test_witness_SendRecvShortReadIsTransportError :
    (Instr.cmdIdentify ⟨5⟩, Config.vocab.opIdentify) ∈ sendRecvCommands ⟨5⟩ ∧
      transportFair (answered .sent [1, 2, 3, 4, 5, 6, 7]) = true ∧
      (writeAnswer (answered .sent [1, 2, 3, 4, 5, 6, 7])).outcome = .sent ∧
      (commandArrivals (answered .sent [1, 2, 3, 4, 5, 6, 7])).length < 8 :=
  ⟨by simp [sendRecvCommands], rfl, rfl, by decide⟩

theorem test_witness_SendRecvFailedWriteMakesNoRead :
    (Instr.cmdUserCount ⟨5⟩, Config.vocab.opUserCount) ∈ sendRecvCommands ⟨5⟩ ∧
      (writeAnswer (answered (.failed 0) [])).outcome = .failed 0 ∧
      (writeAnswer (answering (.failed 9) [1, 2, 3, 4, 5, 6, 7, 8] [] true)).outcome = .failed 9 :=
  ⟨by simp [sendRecvCommands], rfl, rfl⟩

theorem test_witness_EveryCommand :
    commandOf (.cmdLed 7) = some (.led, 7) ∧ keepsReceiving (.cmdLed 7) = true ∧
      commandOf (.cmdLastId ⟨5⟩) = some (.lastId, 0) ∧ keepsReceiving (.cmdLastId ⟨5⟩) = false ∧
      writeReturns (answered .sent []) = true ∧ transportFair (answered .sent []) = true ∧
      transportFair (answered (.failed 0) []) = true ∧ (writeAnswer (answered (.failed 0) [])).outcome ≠ .sent := by decide

theorem test_witness_CommandsWaitWhileTheTransportDoesNotAnswer :
    commandOf (.cmdLed 7) = some (.led, 7) ∧ commandOf (.cmdLastId ⟨5⟩) = some (.lastId, 0) ∧
      writeReturns (answering (.never 8) [] [] true) = false ∧
      (Instr.cmdLastId ⟨5⟩, Config.vocab.opLastId) ∈ sendRecvCommands ⟨5⟩ ∧
      (writeAnswer (answering .sent [] [1] false)).outcome = .sent ∧
      (commandReadAnswer (answering .sent [] [1] false)).returns = false :=
  ⟨rfl, rfl, rfl, by simp [sendRecvCommands], rfl, rfl⟩

theorem test_witness_CommandsCallTheTransportAtMostTwice :
    commandOf (.cmdLastId ⟨5⟩) = some (.lastId, 0) ∧ (writeAnswer (answered .sent [])).outcome = .sent ∧
      (writeAnswer (answering (.never 0) [] [] true)).outcome ≠ .sent := by decide

/-- A command with a read, and the read it makes. -/
theorem test_witness_TimeoutOnlyReachesTheRead :
    Instr.cmdIsPressed ∈ [Instr.cmdIsPressed, Instr.cmdUserCount, Instr.cmdIdentify, Instr.cmdLastId] ∧
      ∃ t, exec (.cmdIsPressed ⟨5⟩) (answered .sent []) = .next t ∧ TransportCall.read 8 ⟨5⟩ ∈ t.calls.drop 0 :=
  ⟨by simp, _, rfl, List.mem_cons_of_mem _ (List.mem_cons_self ..)⟩

theorem test_witness_IsPressedReturnsTheExactAckCode :
    transportFair (answered .sent [0xF5, 0x30, 0xB1, 0, 0, 0, 0xE1, 0xF5]) = true ∧
      (writeAnswer (answered .sent [0xF5, 0x30, 0xB1, 0, 0, 0, 0xE1, 0xF5])).outcome = .sent ∧
      commandArrivals (answered .sent [0xF5, 0x30, 0xB1, 0, 0, 0, 0xE1, 0xF5]) =
        [0xF5, 0x30, 0xB1, 0, 0, 0, 0xE1, 0xF5] ∧
      ∀ n, ackValue illustration n = 0xB1 → n = .fingerNotPresent :=
  ⟨rfl, rfl, rfl, by intro n; cases n <;> decide⟩

theorem test_witness_AckDecodeIsTheUniqueName :
    acksDistinct illustration = true ∧ acksDistinct clashing = false ∧
      ackDecode illustration 0xB1 = some .fingerNotPresent := by decide

theorem test_witness_SendOnlyCommandIsItsExpansion :
    (Instr.cmdLed 7, Config.vocab.opLed, (7 : Byte)) ∈ sendOnlyCommands 7 ∧
      me ∉ (answering (.never 3) [1, 2, 3, 4] [] true).blocked ∧
      Issuer.transport ∉ (answering (.never 3) [1, 2, 3, 4] [] true).blocked ∧
      (answering (.never 3) [1, 2, 3, 4] [] true).writeAnswers = ⟨.never 3, [1] ++ [2] ++ [3] ++ [4]⟩ :: [] :=
  ⟨by simp [sendOnlyCommands], by decide, by decide, rfl⟩

theorem test_witness_SendRecvCommandIsItsExpansionInterleaved :
    (Instr.cmdIsPressed ⟨5⟩, Config.vocab.opIsPressed) ∈ sendRecvCommands ⟨5⟩ ∧
      me ∉ (answering .sent [1, 2, 3, 4] [5, 6, 7, 8] true).blocked ∧
      Issuer.transport ∉ (answering .sent [1, 2, 3, 4] [5, 6, 7, 8] true).blocked ∧
      (answering .sent [1, 2, 3, 4] [5, 6, 7, 8] true).writeAnswers = ⟨.sent, [1] ++ [2] ++ [3] ++ [4]⟩ :: [] ∧
      (answering .sent [1, 2, 3, 4] [5, 6, 7, 8] true).readAnswers = ⟨[5] ++ [6, 7, 8], true⟩ :: [] :=
  ⟨by simp [sendRecvCommands], by decide, by decide, rfl, rfl⟩

theorem test_witness_FailedSendRecvIsItsExpansionInterleaved :
    (Instr.cmdIsPressed ⟨5⟩, Config.vocab.opIsPressed) ∈ sendRecvCommands ⟨5⟩ ∧
      WriteOutcome.failed 0 ≠ .sent ∧ WriteOutcome.never 8 ≠ .sent ∧
      me ∉ (answering (.failed 0) [1, 2, 3, 4] [] true).blocked ∧
      Issuer.transport ∉ (answering (.failed 0) [1, 2, 3, 4] [] true).blocked ∧
      (answering (.failed 0) [1, 2, 3, 4] [] true).writeAnswers = ⟨.failed 0, [1] ++ [2] ++ [3] ++ [4]⟩ :: [] :=
  ⟨by simp [sendRecvCommands], by decide, by decide, by decide, by decide, rfl⟩

/-- What is issued for one caller's `CMD_LED(7)`, the transport pushing between. -/
def ledIssued : List Issued :=
  [⟨me, byName (.build Config.vocab.opLed 7 0 0 0)⟩, ⟨.transport, byName (.rxpush 1)⟩, ⟨me, byName .ser⟩]

/-- What is issued for one caller's `CMD_LAST_ID`, before its read: eight bytes and one more come. -/
def lastIdIssued : List Issued :=
  [⟨.transport, byName (.rxpush 9)⟩, ⟨me, byName .rxclr⟩, ⟨me, byName (.build Config.vocab.opLastId 0 0 0 0)⟩,
    ⟨me, byName .ser⟩, ⟨.transport, byName (.rxpush 1)⟩, ⟨me, .twrite (commandFrame Config.vocab.opLastId 0)⟩] ++
    pushEvents [2, 3, 4, 5, 6, 7, 8, 9]

theorem test_witness_ExclusiveUseMakesCommandsWriteTheirFrame_sendOnly :
    (Instr.cmdLed 7, Config.vocab.opLed, (7 : Byte)) ∈ sendOnlyCommands 7 ∧ exclusiveUse 0 ledIssued = true ∧
      othersOnlyPush ledIssued = true ∧
      ownEvents 0 ledIssued = [byName (.build Config.vocab.opLed 7 0 0 0), byName .ser] ∧
      me ∉ (answered .sent []).blocked ∧ Issuer.transport ∉ (answered .sent []).blocked ∧
      (answered .sent []).writeAnswers = ⟨.sent, []⟩ :: [] :=
  ⟨by simp [sendOnlyCommands], rfl, rfl, rfl, by decide, by decide, rfl⟩

theorem test_witness_ExclusiveUseMakesCommandsWriteTheirFrame_sendRecv :
    (Instr.cmdLastId ⟨5⟩, Config.vocab.opLastId) ∈ sendRecvCommands ⟨5⟩ ∧ exclusiveUse 0 lastIdIssued = true ∧
      othersOnlyPush lastIdIssued = true ∧
      ownEvents 0 lastIdIssued = [byName .rxclr, byName (.build Config.vocab.opLastId 0 0 0 0), byName .ser,
        .twrite (commandFrame Config.vocab.opLastId 0)] ∧
      me ∉ (answered .sent []).blocked ∧ Issuer.transport ∉ (answered .sent []).blocked ∧
      (answered .sent []).writeAnswers = ⟨.sent, []⟩ :: [] ∧ (answered .sent []).readAnswers = ⟨[], true⟩ :: [] ∧
      bytesAfterClear 0 lastIdIssued = 1 :: 2 :: 3 :: 4 :: 5 :: 6 :: 7 :: 8 :: [9] :=
  ⟨by simp [sendRecvCommands], rfl, rfl, rfl, by decide, by decide, rfl, rfl, by decide⟩

/-- A second caller's call in between is no exclusive use. -/
theorem test_witness_no_exclusiveUse :
    exclusiveUse 0 (⟨.host 1, byName .ser⟩ :: ledIssued) = false ∧
      othersOnlyPush (⟨.platform, byName .reset⟩ :: ledIssued) = false := ⟨rfl, rfl⟩

/-- The whole response, and only its first two bytes. -/
theorem test_witness_QuietLinkMakesTheValueTheModules :
    (Instr.cmdLastId ⟨5⟩, Config.vocab.opLastId) ∈ sendRecvCommands ⟨5⟩ ∧
      quietLink #v[1, 2, 3, 4, 5, 6, 7, 8] (answering .sent [1] [2, 3, 4, 5, 6, 7, 8] true) = true ∧
      transportFair (answering .sent [1] [2, 3, 4, 5, 6, 7, 8] true) = true ∧
      commandArrivals (answering .sent [1] [2, 3, 4, 5, 6, 7, 8] true) = serialize #v[1, 2, 3, 4, 5, 6, 7, 8] ∧
      quietLink #v[1, 2, 3, 4, 5, 6, 7, 8] (answered .sent [1, 2]) = true ∧
      quietLink #v[1, 2, 3, 4, 5, 6, 7, 8] (answered .sent [2]) = false :=
  ⟨by simp [sendRecvCommands], by decide, rfl, by decide, by decide, by decide⟩

theorem test_witness_CommandsFromCleanEntryKeepTheWireWhole :
    commandOf .cmdOpen = some (.openModule, 0) ∧ cleanEntry State.reset = true ∧ wireSound State.reset ∧
      cleanEntry (sending 0) = true ∧ wireSound (sending 0) ∧ cleanEntry (sending 3) = false :=
  ⟨rfl, rfl, ⟨fun h => absurd h (by decide), [], by simp, by decide⟩, by decide,
    ⟨fun _ => ⟨0x2A, 0x03, 0, 0, 0, by decide⟩, [], by simp, by decide⟩, by decide⟩

theorem test_witness_CommandsForgetEarlierCodecState :
    commandOf .cmdOpen = some (.openModule, 0) ∧
      holding 8 = { State.reset with
        txf := (holding 8).txf
        txi := (holding 8).txi
        acc := (holding 8).acc
        rxf := (holding 8).rxf
        rxi := (holding 8).rxi } := by decide

theorem test_witness_WriteDeliversAllOrAPrefix :
    (writeAnswer (answered .sent [])).outcome = .sent ∧ (writeAnswer (answered .sent [])).arrived = [] ∧
      (writeAnswer (answered (.failed 3) [])).outcome = .failed 3 ∧
      (writeAnswer (answering (.never 0) [1] [] true)).outcome = .never 0 := by decide

/-- Full at the end of the read, one byte short, and never returning. -/
theorem test_witness_ReadSucceedsExactlyWhenFrameIsFull :
    (∃ t, performEvent (.tread ⟨1⟩) { answered .sent [1] with rxi := 7 } = .next t ∧ t.rxi.val = 8 ∧
      (readAnswer { answered .sent [1] with rxi := 7 }).returns = true) ∧
    (∃ t, performEvent (.tread ⟨1⟩) { answered .sent [] with rxi := 7 } = .next t ∧ t.rxi.val < 8) ∧
    (readAnswer (answering .sent [] [] false)).returns = false := ⟨⟨_, rfl, rfl, rfl⟩, ⟨_, rfl, by decide⟩, rfl⟩

theorem test_witness_StepRunsTheDecodedInstruction :
    (issuing (.named .ser [] none)).issued = ⟨me, .issue (.named .ser [] none)⟩ :: [] ∧
      me ∉ (issuing (.named .ser [] none)).blocked ∧ decode Config.vocab (.named .ser [] none) = .instr .ser ∧
      ∃ t, exec .ser { issuing (.named .ser [] none) with issued := [] } = .next t ∧ t.result ≠ .pending :=
  ⟨rfl, by decide, rfl, _, rfl, by decide⟩

theorem test_witness_StepActsOnlyOnWhatIsIssued :
    State.reset.issued = [] ∧
      (issuing (.frame .moduleToHost [1] ⟨0⟩)).issued = ⟨me, .issue (.frame .moduleToHost [1] ⟨0⟩)⟩ :: [] ∧
      me ∉ (issuing (.frame .moduleToHost [1] ⟨0⟩)).blocked ∧
      decode Config.vocab (.frame .moduleToHost [1] ⟨0⟩) = .rejected (.badLength 1) ∧
      decodeTableWord 64 0x00772A1122339900 = some (.response 0x00 0x77 0x2A 0x11 0x22 0x33 0x99 0x00) ∧
      ∃ t, exec (.response 0x00 0x77 0x2A 0x11 0x22 0x33 0x99 0x00) { State.reset with blocked := [] } = .next t :=
  ⟨rfl, rfl, by decide, rfl, by decide, _, rfl⟩

/-- The caller blocked, and something else listed for it. -/
def stuck : State := { issuing (.named .ser [] none) with blocked := [me] }

theorem test_witness_BlockedHostIssuesNothing :
    stuck.issued = ⟨me, .issue (.named .ser [] none)⟩ :: [] ∧ me ∈ stuck.blocked ∧
    (∃ t, step stuck = .next t ∧ t.issued = [] ∧ t.emitted = []) ∧
    ∃ t, step { answering (.never 1) [] [] true with issued := [⟨me, .twrite [7, 8]⟩] } = .next t ∧
      t.result = .pending ∧ me ∉ (answering (.never 1) [] [] true).blocked :=
  ⟨rfl, by decide, ⟨_, rfl, rfl, rfl⟩, _, rfl, rfl, by decide⟩

/-- A frame built and a pop issued. -/
def popping : State :=
  { sending 3 with emitted := [0xF5, 0x2A, 0x03], issued := [⟨me, .issue (.named .txpop [] none)⟩] }

theorem test_witness_StepKeepsUnsentFrameSound :
    txFrameSound popping ∧ ∃ t, step popping = .next t ∧ t.txi.val = 4 :=
  ⟨fun _ => ⟨0x2A, 0x03, 0, 0, 0, by decide⟩, _, rfl, rfl⟩

theorem test_witness_SafeStepKeepsWireSound :
    safeStep popping = true ∧ wireSound popping ∧ ∃ t, step popping = .next t ∧ t.emitted.length = 4 :=
  ⟨rfl, ⟨fun _ => ⟨0x2A, 0x03, 0, 0, 0, by decide⟩, [], by simp, by decide⟩, _, rfl, rfl⟩

/-- Two states that differ in `ACC`, in an emitted byte and in a byte not received. -/
theorem test_witness_UnobservableContentsNeverShow :
    ({ popping with acc := 7, txf := #v[0, 0, 0, 0, 0, 0, 0x2D, 0xF5], rxf := #v[1, 2, 3, 4, 5, 6, 7, 8] } : State) ≠
      popping ∧
    indistinguishable popping
      { popping with acc := 7, txf := #v[0, 0, 0, 0, 0, 0, 0x2D, 0xF5], rxf := #v[1, 2, 3, 4, 5, 6, 7, 8] } :=
  ⟨by decide, by unfold indistinguishable; decide⟩

theorem test_witness_UnobservableContentsNeverShow_stops :
    (∃ t, step popping = .next t) ∧
      step (issuing (.named .ser [1] none)) = .refused (.undecodable (.badOperands .ser)) := ⟨⟨_, rfl⟩, rfl⟩

theorem test_witness_DecodeOfEncodeIsTheInstruction :
    [Instr.cmdOpen, .cmdClose, .cmdLed 7, .cmdIsPressed ⟨5⟩, .cmdEnroll 7, .cmdDeleteOne 7, .cmdDeleteAll,
      .cmdUserCount ⟨5⟩, .cmdIdentify ⟨5⟩, .cmdLastId ⟨5⟩, .cmdCancelEnroll, .request 0x45 1 0 0 0,
      .response 1 2 3 4 5 6 7 8, .csum 1 2 3 4 5, .build 1 2 3 4 5, .txpop, .ser, .rxclr, .rxpush 1, .parse, .rdstat,
      .reset].all (wellFormed illustration) = true := by decide

theorem test_witness_DistinctOpcodesMakeCommandsDecodable :
    opcodesDistinct illustration = true ∧ acksDistinct illustration = true ∧ opcodesDistinct clashing = false := by
  decide

theorem test_witness_EveryFrameDecodes : [(0 : Byte), 0, 0, 0, 0, 0, 0].length ≠ 8 ∧ ([] : List Byte).length ≠ 8 := by
  decide

end Sys2Proof.Tests
end

section
/-! PROOF. 00_scope.md R15: every operation takes indistinguishable states to indistinguishable states. One lemma per
operation, in the order of the model's definitions; a step is made of them. -/

namespace Sys2Proof.Machine

variable {s t : State}

/-! ### The relation in three parts -/

/-- A state with the contents of `ACC`, `TXF` and `RXF` blanked: all that it holds beside them. -/
def blanked (s : State) : State := setTxf (Vector.replicate 8 0) (setAcc 0 (setRxf (Vector.replicate 8 0) s))

/-- The bytes of `RXF` received so far (10_state.md R24, R25). -/
def receivedPart (s : State) : List Byte := (serialize s.rxf).take s.rxi.val

/-- Two states are indistinguishable when they agree beside the three contents, in what is left to emit, and in what has
been received. -/
theorem indistinguishable_iff :
    indistinguishable s t ↔
      blanked s = blanked t ∧ remainingTxBytes s = remainingTxBytes t ∧ receivedPart s = receivedPart t := by
  unfold indistinguishable
  constructor
  · rintro ⟨htxi, hrxi, htx, hrx, hresult, hemitted, hcalls, hdelivered, hwrites, hreads, hblocked, hissued, hdraws⟩
    refine ⟨?_, htx, hrx⟩
    simp only [blanked, setTxf, setAcc, setRxf, htxi, hrxi, hresult, hemitted, hcalls, hdelivered, hwrites, hreads,
      hblocked, hissued, hdraws]
  · rintro ⟨hb, htx, hrx⟩
    simp only [blanked, setTxf, setAcc, setRxf, State.mk.injEq, true_and] at hb
    obtain ⟨htxi, hrxi, hrest⟩ := hb
    exact ⟨htxi, hrxi, htx, hrx, hrest⟩

namespace indistinguishable

protected theorem blanked (h : indistinguishable s t) : blanked s = blanked t := (indistinguishable_iff.1 h).1

protected theorem remainingTxBytes (h : indistinguishable s t) : remainingTxBytes s = remainingTxBytes t :=
  (indistinguishable_iff.1 h).2.1

protected theorem receivedPart (h : indistinguishable s t) : receivedPart s = receivedPart t :=
  (indistinguishable_iff.1 h).2.2

/-! ### What reads the same in both states -/

protected theorem txi (h : indistinguishable s t) : s.txi = t.txi := (congrArg State.txi h.blanked :)

protected theorem rxi (h : indistinguishable s t) : s.rxi = t.rxi := (congrArg State.rxi h.blanked :)

protected theorem rxc (h : indistinguishable s t) : rxc s = rxc t := (congrArg rxc h.blanked :)

protected theorem result (h : indistinguishable s t) : s.result = t.result := (congrArg State.result h.blanked :)

protected theorem writeAnswers (h : indistinguishable s t) : s.writeAnswers = t.writeAnswers :=
  (congrArg State.writeAnswers h.blanked :)

protected theorem readAnswers (h : indistinguishable s t) : s.readAnswers = t.readAnswers :=
  (congrArg State.readAnswers h.blanked :)

protected theorem blocked (h : indistinguishable s t) : s.blocked = t.blocked := (congrArg State.blocked h.blanked :)

protected theorem issued (h : indistinguishable s t) : s.issued = t.issued := (congrArg State.issued h.blanked :)

protected theorem draws (h : indistinguishable s t) : s.draws = t.draws := (congrArg State.draws h.blanked :)

protected theorem writeAnswer (h : indistinguishable s t) : writeAnswer s = writeAnswer t :=
  (congrArg writeAnswer h.blanked :)

protected theorem readAnswer (h : indistinguishable s t) : readAnswer s = readAnswer t :=
  (congrArg readAnswer h.blanked :)

end indistinguishable

/-- The next byte to pop is the first of those left to emit. -/
theorem nextTxByte_eq_head? (s : State) : nextTxByte s = (remainingTxBytes s).head? := by
  rcases Nat.lt_or_ge s.txi.val 8 with hlt | hge
  · simp [nextTxByte_of_lt s hlt, remainingTxBytes, hlt]
  · simp [nextTxByte_of_eq s (by omega), remainingTxBytes, hge]

/-- The transmit index after a `TXPOP` (41_serializer.md R113). -/
def nextIndex (i : Index) : Index := ⟨min 8 (i.val + 1), by omega⟩

theorem le_nextIndex (i : Index) : i.val ≤ (nextIndex i).val := by
  simp only [nextIndex]
  omega

/-- `TXPOP` emits the next byte, if there is one, and advances the index (41_serializer.md R113). -/
theorem advanceTx_eq_addEmitted (s : State) :
    advanceTx s = addEmitted (nextTxByte s).toList (setTxi (nextIndex s.txi) s) := by
  rcases Nat.lt_or_ge s.txi.val 8 with hlt | hge
  · have hindex : nextIndex s.txi = ⟨s.txi.val + 1, by omega⟩ := Fin.ext (by simp only [nextIndex]; omega)
    rw [advanceTx_of_lt s hlt, nextTxByte_of_lt s hlt, hindex]
    rfl
  · have h8 : s.txi.val = 8 := by omega
    have hindex : nextIndex s.txi = s.txi := Fin.ext (by simp only [nextIndex]; omega)
    rw [advanceTx_of_eq s h8, nextTxByte_of_eq s h8, hindex]
    simp [addEmitted, setTxi]

namespace indistinguishable

protected theorem nextTxByte (h : indistinguishable s t) : nextTxByte s = nextTxByte t := by
  rw [nextTxByte_eq_head?, nextTxByte_eq_head?, h.remainingTxBytes]

/-- Once all eight bytes have been received the receive frames are the same. -/
theorem rxf_of_full (h : indistinguishable s t) (hfull : s.rxi.val = 8) : s.rxf = t.rxf := by
  have hreceived := h.receivedPart
  rw [receivedPart, receivedPart, ← h.rxi, hfull, serialize_eq_toList, serialize_eq_toList,
    List.take_of_length_le (by simp), List.take_of_length_le (by simp)] at hreceived
  exact Vector.toList_inj.1 hreceived

protected theorem receivedFrame (h : indistinguishable s t) : receivedFrame s = receivedFrame t := by
  unfold receivedFrame
  rw [← h.rxi]
  split
  · rw [h.rxf_of_full ‹_›]
  · rfl

protected theorem receivedStatus (h : indistinguishable s t) : receivedStatus s = receivedStatus t := by
  unfold receivedStatus
  rw [← h.rxi]
  split
  · rw [h.rxf_of_full ‹_›]
  · rfl

/-! ### Updates of the records -/

protected theorem setResult (h : indistinguishable s t) (r : Result) :
    indistinguishable (setResult r s) (setResult r t) :=
  indistinguishable_iff.2 ⟨congrArg (setResult r) h.blanked, h.remainingTxBytes, h.receivedPart⟩

protected theorem addEmitted (h : indistinguishable s t) (bs : List Byte) :
    indistinguishable (addEmitted bs s) (addEmitted bs t) :=
  indistinguishable_iff.2 ⟨congrArg (addEmitted bs) h.blanked, h.remainingTxBytes, h.receivedPart⟩

protected theorem addCall (h : indistinguishable s t) (c : TransportCall) :
    indistinguishable (addCall c s) (addCall c t) :=
  indistinguishable_iff.2 ⟨congrArg (addCall c) h.blanked, h.remainingTxBytes, h.receivedPart⟩

protected theorem addDelivered (h : indistinguishable s t) (bs : List Byte) :
    indistinguishable (addDelivered bs s) (addDelivered bs t) :=
  indistinguishable_iff.2 ⟨congrArg (addDelivered bs) h.blanked, h.remainingTxBytes, h.receivedPart⟩

protected theorem setBlocked (h : indistinguishable s t) (l : List Issuer) :
    indistinguishable (setBlocked l s) (setBlocked l t) :=
  indistinguishable_iff.2 ⟨congrArg (setBlocked l) h.blanked, h.remainingTxBytes, h.receivedPart⟩

protected theorem setIssued (h : indistinguishable s t) (l : List Issued) :
    indistinguishable (setIssued l s) (setIssued l t) :=
  indistinguishable_iff.2 ⟨congrArg (setIssued l) h.blanked, h.remainingTxBytes, h.receivedPart⟩

protected theorem setWriteAnswers (h : indistinguishable s t) (l : List WriteAnswer) :
    indistinguishable (setWriteAnswers l s) (setWriteAnswers l t) :=
  indistinguishable_iff.2 ⟨congrArg (setWriteAnswers l) h.blanked, h.remainingTxBytes, h.receivedPart⟩

protected theorem setReadAnswers (h : indistinguishable s t) (l : List ReadAnswer) :
    indistinguishable (setReadAnswers l s) (setReadAnswers l t) :=
  indistinguishable_iff.2 ⟨congrArg (setReadAnswers l) h.blanked, h.remainingTxBytes, h.receivedPart⟩

protected theorem addDraw (h : indistinguishable s t) : indistinguishable (addDraw s) (addDraw t) :=
  indistinguishable_iff.2 ⟨congrArg addDraw h.blanked, h.remainingTxBytes, h.receivedPart⟩

/-! ### Checksum generator and transmit side -/

/-- `ACC` shows in neither state. -/
protected theorem runChecksum (h : indistinguishable s t) (op p0 p1 p2 p3 : Byte) :
    indistinguishable (runChecksum op p0 p1 p2 p3 s) (runChecksum op p0 p1 p2 p3 t) :=
  indistinguishable_iff.2 ⟨h.blanked, h.remainingTxBytes, h.receivedPart⟩

/-- `BUILD` overwrites all that differed on the transmit side. -/
protected theorem buildFrame (h : indistinguishable s t) (op p0 p1 p2 p3 : Byte) :
    indistinguishable (buildFrame op p0 p1 p2 p3 s) (buildFrame op p0 p1 p2 p3 t) :=
  indistinguishable_iff.2 ⟨congrArg (setTxi 0) h.blanked, rfl, h.receivedPart⟩

/-- Advancing `TXI` hides more bytes of `TXF` and uncovers none. -/
theorem setTxi_of_le (h : indistinguishable s t) (i : Index) (hi : s.txi.val ≤ i.val) :
    indistinguishable (setTxi i s) (setTxi i t) := by
  refine indistinguishable_iff.2 ⟨congrArg (setTxi i) h.blanked, ?_, h.receivedPart⟩
  have hdrop := congrArg (List.drop (i.val - s.txi.val)) h.remainingTxBytes
  simpa only [remainingTxBytes, setTxi_txf, setTxi_txi, ← h.txi, List.drop_drop, Nat.add_sub_cancel' hi] using hdrop

protected theorem advanceTx (h : indistinguishable s t) : indistinguishable (advanceTx s) (advanceTx t) := by
  rw [advanceTx_eq_addEmitted, advanceTx_eq_addEmitted, ← h.nextTxByte, ← h.txi]
  exact (h.setTxi_of_le _ (le_nextIndex s.txi)).addEmitted _

protected theorem finishTx (h : indistinguishable s t) : indistinguishable (finishTx s) (finishTx t) := by
  rw [finishTx, finishTx, ← h.remainingTxBytes]
  exact (h.addEmitted _).setTxi_of_le 8 (Nat.le_of_lt_succ s.txi.isLt)

/-! ### Receive side -/

/-- With `RXI = 0` no byte of `RXF` counts as received. -/
protected theorem clearRx (h : indistinguishable s t) : indistinguishable (clearRx s) (clearRx t) :=
  indistinguishable_iff.2 ⟨congrArg (setRxi 0) h.blanked, h.remainingTxBytes, rfl⟩

/-- Bytes received are stored after those received before, and nothing else of `RXF` is uncovered. -/
protected theorem pushAllRx (h : indistinguishable s t) (bs : List Byte) :
    indistinguishable (pushAllRx bs s) (pushAllRx bs t) := by
  obtain ⟨hindex, hbytes⟩ := pushAllRx_received bs s
  obtain ⟨hindex', hbytes'⟩ := pushAllRx_received bs t
  have hreceived := h.receivedPart
  simp only [receivedPart, serialize_eq_toList] at hreceived
  have hrxi : (pushAllRx bs s).rxi = (pushAllRx bs t).rxi := Fin.ext (by rw [hindex, hindex', h.rxi])
  refine indistinguishable_iff.2 ⟨?_, ?_, ?_⟩
  · rw [pushAllRx_frame bs s, pushAllRx_frame bs t, hrxi]
    exact congrArg (setRxi (pushAllRx bs t).rxi) h.blanked
  · rw [pushAllRx_frame bs s, pushAllRx_frame bs t]
    exact h.remainingTxBytes
  · simp only [receivedPart, serialize_eq_toList]
    rw [hbytes, hbytes', hreceived]

protected theorem pushRx (h : indistinguishable s t) (b : Byte) : indistinguishable (pushRx b s) (pushRx b t) :=
  h.pushAllRx [b]

/-! ### Transport primitives -/

protected theorem dropWriteAnswer (h : indistinguishable s t) :
    indistinguishable (dropWriteAnswer s) (dropWriteAnswer t) := by
  unfold dropWriteAnswer
  rw [← h.writeAnswers]
  split
  · exact h.setWriteAnswers _
  · exact h.addDraw

protected theorem dropReadAnswer (h : indistinguishable s t) :
    indistinguishable (dropReadAnswer s) (dropReadAnswer t) := by
  unfold dropReadAnswer
  rw [← h.readAnswers]
  split
  · exact h.setReadAnswers _
  · exact h.addDraw

protected theorem transportWrite (h : indistinguishable s t) (bytes : List Byte) :
    indistinguishable (transportWrite bytes s) (transportWrite bytes t) := by
  rw [transportWrite, transportWrite, ← h.writeAnswer]
  exact ((h.addCall _).addDelivered _).dropWriteAnswer.pushAllRx _

protected theorem transportRead (h : indistinguishable s t) (d : Timeout) :
    indistinguishable (transportRead d s) (transportRead d t) := by
  rw [transportRead, transportRead, ← h.readAnswer]
  exact (h.addCall _).dropReadAnswer.pushAllRx _

/-! ### The two command templates, and `RESET` -/

protected theorem sendRequest (h : indistinguishable s t) (op a : Byte) :
    indistinguishable (sendRequest op a s) (sendRequest op a t) := by
  have hbuilt := h.buildFrame op a unusedParameter unusedParameter unusedParameter
  rw [sendRequest, sendRequest, ← hbuilt.remainingTxBytes]
  exact hbuilt.finishTx.transportWrite _

protected theorem sendOnly (h : indistinguishable s t) (op a : Byte) :
    indistinguishable (sendOnly op a s) (sendOnly op a t) := by
  rw [sendOnly, sendOnly, ← h.writeAnswer]
  exact (h.sendRequest op a).setResult _

/-- The status byte is read only from a full register. -/
protected theorem receiveStatus (h : indistinguishable s t) (d : Timeout) :
    indistinguishable (receiveStatus d s) (receiveStatus d t) := by
  have hread := h.transportRead d
  simp only [receiveStatus, ← h.readAnswer, ← hread.rxc, ← hread.receivedStatus]
  split
  · split
    · split
      · exact hread.setResult _
      · exact hread.setResult _
    · exact hread.setResult _
  · exact hread.setResult _

protected theorem sendRecv (h : indistinguishable s t) (op a : Byte) (d : Timeout) :
    indistinguishable (sendRecv op a d s) (sendRecv op a d t) := by
  have hsent := h.clearRx.sendRequest op a
  unfold sendRecv
  rw [← h.writeAnswer]
  split
  · exact hsent.receiveStatus d
  · exact hsent.setResult _
  · exact hsent.setResult _

/-- Both states draw the same free values (70_reset_and_hazards.md R200). -/
protected theorem resetCodec (h : indistinguishable s t) : indistinguishable (resetCodec s) (resetCodec t) :=
  indistinguishable_iff.2
    ⟨congrArg (fun u => addDraw (setTxi 8 (setRxi 0 u))) h.blanked,
      by simp [remainingTxBytes, resetCodec_eq, h.draws], rfl⟩

end indistinguishable

/-! ### Outcomes -/

/-- Two outcomes that no agent can tell apart: indistinguishable next states, or one refusal. -/
inductive outcomesMatch : Host.Outcome State Fault Refusal → Host.Outcome State Fault Refusal → Prop where
  | next {s t : State} (h : indistinguishable s t) : outcomesMatch (.next s) (.next t)
  | refused (r : Refusal) : outcomesMatch (.refused r) (.refused r)

namespace outcomesMatch

variable {o p : Host.Outcome State Fault Refusal}

theorem of_next {s' : State} (h : outcomesMatch o p) (hnext : o = .next s') :
    ∃ t', p = .next t' ∧ indistinguishable s' t' := by
  cases h with
  | next hst => cases hnext; exact ⟨_, rfl, hst⟩
  | refused => cases hnext

theorem of_refused {r : Refusal} (h : outcomesMatch o p) (hrefused : o = .refused r) : p = .refused r := by
  cases h with
  | next => cases hrefused
  | refused => exact hrefused

end outcomesMatch

namespace indistinguishable

protected theorem execParse (h : indistinguishable s t) : outcomesMatch (execParse s) (execParse t) := by
  unfold execParse
  rw [← h.receivedFrame]
  split
  · exact .next (h.setResult _)
  · exact .next (h.setResult _)

protected theorem execRdstat (h : indistinguishable s t) : outcomesMatch (execRdstat s) (execRdstat t) := by
  unfold execRdstat
  rw [← h.receivedStatus]
  split
  · exact .next (h.setResult _)
  · exact .next (h.setResult _)

protected theorem execTxpop (h : indistinguishable s t) : outcomesMatch (execTxpop s) (execTxpop t) := by
  rw [execTxpop, execTxpop, ← h.nextTxByte]
  exact .next (h.advanceTx.setResult _)

protected theorem execSer (h : indistinguishable s t) : outcomesMatch (execSer s) (execSer t) := by
  rw [execSer, execSer, ← h.remainingTxBytes]
  exact .next (h.finishTx.setResult _)

/-- Every instruction takes indistinguishable states to matching outcomes (00_scope.md R15). -/
protected theorem exec (h : indistinguishable s t) (i : Instr) : outcomesMatch (exec i s) (exec i t) := by
  cases i with
  | cmdOpen | cmdClose | cmdLed | cmdEnroll | cmdDeleteOne | cmdDeleteAll | cmdCancelEnroll =>
    exact .next (h.sendOnly _ _)
  | cmdIsPressed | cmdUserCount | cmdIdentify | cmdLastId => exact .next (h.sendRecv _ _ _)
  | request | response => exact .next (h.setResult _)
  | csum op p0 p1 p2 p3 => exact .next ((h.runChecksum op p0 p1 p2 p3).setResult _)
  | build op p0 p1 p2 p3 => exact .next ((h.buildFrame op p0 p1 p2 p3).setResult _)
  | txpop => exact h.execTxpop
  | ser => exact h.execSer
  | rxclr => exact .next (h.clearRx.setResult _)
  | rxpush b => exact .next ((h.pushRx b).setResult _)
  | parse => exact h.execParse
  | rdstat => exact h.execRdstat
  | reset => exact .next (h.resetCodec.setResult _)

protected theorem execTWrite (h : indistinguishable s t) (bytes : List Byte) :
    outcomesMatch (execTWrite bytes s) (execTWrite bytes t) := by
  rw [execTWrite, execTWrite, ← h.writeAnswer]
  exact .next ((h.transportWrite bytes).setResult _)

protected theorem execTRead (h : indistinguishable s t) (d : Timeout) :
    outcomesMatch (execTRead d s) (execTRead d t) := by
  have hread := h.transportRead d
  rw [execTRead_eq, execTRead_eq, ← h.readAnswer, ← hread.rxi]
  exact .next (hread.setResult _)

/-! ### Events and steps -/

/-- What an event decodes to does not depend on the state. -/
protected theorem performEvent (h : indistinguishable s t) (e : Event) :
    outcomesMatch (performEvent e s) (performEvent e t) := by
  cases e with
  | issue c =>
    simp only [performEvent]
    split
    · exact h.exec _
    · exact .refused _
  | twrite bytes => exact h.execTWrite bytes
  | tread d => exact h.execTRead d

protected theorem noteBlocked (h : indistinguishable s t) (who : Issuer) :
    indistinguishable (noteBlocked who s) (noteBlocked who t) := by
  unfold noteBlocked
  rw [← h.result, ← h.blocked]
  split
  · exact h.setBlocked _
  · exact h

protected theorem performIssued (h : indistinguishable s t) (e : Issued) :
    outcomesMatch (performIssued e s) (performIssued e t) := by
  unfold performIssued
  rw [← h.blocked]
  split
  · exact .next h
  · have hevent := h.performEvent e.event
    generalize performEvent e.event s = o, performEvent e.event t = p at hevent
    cases hevent with
    | next hu => exact .next (hu.noteBlocked e.issuer)
    | refused r => exact .refused r

protected theorem step (h : indistinguishable s t) : outcomesMatch (step s) (step t) := by
  unfold step
  rw [← h.issued]
  split
  · exact .next h
  · exact (h.setIssued _).performIssued _

end indistinguishable

end Sys2Proof.Machine

open Sys2Proof Sys2Proof.Machine

/-- Settles O54: each part of a step keeps the relation and reads the same in both states, so the outcomes of a step
match (00_scope.md R15). -/
theorem unobservableContentsNeverShow : Obligations.UnobservableContentsNeverShow := by
  unfold Obligations.UnobservableContentsNeverShow
  intro s t h
  exact ⟨fun _ hnext => h.step.of_next hnext, fun _ hrefused => h.step.of_refused hrefused⟩
end

section
/-! PROOF. 10_state.md: what each instruction does to the transmit side (R20 to R22, R34), to the receive index (R24 to
R26), and what a step takes from the list of issued events (R27). -/

namespace Sys2Proof.Machine

/-! ### What the shared operations leave of the transmit side and of the receive index -/

@[simp] theorem advanceTx_txf (s : State) : (advanceTx s).txf = s.txf := by
  rw [advanceTx_eq_addEmitted]
  rfl

@[simp] theorem advanceTx_txi (s : State) : (advanceTx s).txi = nextIndex s.txi := by
  rw [advanceTx_eq_addEmitted]
  rfl

@[simp] theorem advanceTx_rxf (s : State) : (advanceTx s).rxf = s.rxf := by
  rw [advanceTx_eq_addEmitted]
  rfl

@[simp] theorem advanceTx_rxi (s : State) : (advanceTx s).rxi = s.rxi := by
  rw [advanceTx_eq_addEmitted]
  rfl

@[simp] theorem pushAllRx_txf (bs : List Byte) (s : State) : (pushAllRx bs s).txf = s.txf := by
  rw [pushAllRx_frame]

@[simp] theorem pushAllRx_txi (bs : List Byte) (s : State) : (pushAllRx bs s).txi = s.txi := by
  rw [pushAllRx_frame]

@[simp] theorem transportWrite_txf (bytes : List Byte) (s : State) : (transportWrite bytes s).txf = s.txf := by
  rw [transportWrite_eq]

@[simp] theorem transportWrite_txi (bytes : List Byte) (s : State) : (transportWrite bytes s).txi = s.txi := by
  rw [transportWrite_eq]

@[simp] theorem transportRead_txf (d : Timeout) (s : State) : (transportRead d s).txf = s.txf := by
  rw [transportRead_eq]

@[simp] theorem transportRead_txi (d : Timeout) (s : State) : (transportRead d s).txi = s.txi := by
  rw [transportRead_eq]

@[simp] theorem sendRequest_txf (op a : Byte) (s : State) :
    (sendRequest op a s).txf = buildRequest op a 0 0 0 := by
  rw [sendRequest_eq]

@[simp] theorem sendOnly_txf (op a : Byte) (s : State) : (sendOnly op a s).txf = buildRequest op a 0 0 0 :=
  sendRequest_txf op a s

/-- After the write of a response-bearing command comes at most a read, which writes no transmit register
(43_commands.md R152). -/
@[simp] theorem sendRecv_txf (op a : Byte) (d : Timeout) (s : State) :
    (sendRecv op a d s).txf = buildRequest op a 0 0 0 := by
  by_cases hsent : (writeAnswer s).outcome = .sent
  · rw [sendRecv_sent_eq op a d s hsent]
  · rw [sendRecv_of_not_sent op a d s hsent, setResult_txf, sendRequest_txf]

/-- `SendOnly` receives what arrives in its write, and clears nothing (43_commands.md R168). -/
theorem sendOnly_rx (op a : Byte) (s : State) :
    (sendOnly op a s).rxf = (pushAllRx (writeAnswer s).arrived s).rxf ∧
      (sendOnly op a s).rxi = (pushAllRx (writeAnswer s).arrived s).rxi := by
  rw [sendOnly, sendRequest_eq]
  exact ⟨rfl, rfl⟩

@[simp] theorem noteBlocked_txf (who : Issuer) (s : State) : (noteBlocked who s).txf = s.txf := by
  rw [noteBlocked_eq]

@[simp] theorem noteBlocked_txi (who : Issuer) (s : State) : (noteBlocked who s).txi = s.txi := by
  rw [noteBlocked_eq]

/-- Only a pending result blocks its issuer (70_reset_and_hazards.md R210). -/
theorem noteBlocked_of_ne_pending (who : Issuer) (s : State) (h : s.result ≠ .pending) : noteBlocked who s = s := by
  rw [noteBlocked, if_neg h]

/-! ### What one instruction does -/

/-- `PARSE` only gives a result (42_deserializer.md R134). -/
theorem execParse_eq_setResult (s : State) : ∃ r, execParse s = .next (setResult r s) := by
  unfold execParse
  split
  · exact ⟨_, rfl⟩
  · exact ⟨_, rfl⟩

/-- `RDSTAT` only gives a result (42_deserializer.md R135). -/
theorem execRdstat_eq_setResult (s : State) : ∃ r, execRdstat s = .next (setResult r s) := by
  unfold execRdstat
  split
  · exact ⟨_, rfl⟩
  · exact ⟨_, rfl⟩

/-- All that an instruction can do to the transmit side: write whole the frame it builds; reset; emit; or nothing
(10_state.md R21, R22). -/
theorem exec_tx_cases {i : Instr} {s t : State} (h : exec i s = .next t) :
    frameBuiltBy i = some t.txf ∨ (i = .reset ∧ t.txi = 8) ∨
      ((i = .txpop ∨ i = .ser) ∧ t.txf = s.txf ∧ s.txi.val ≤ t.txi.val) ∨ (t.txf = s.txf ∧ t.txi = s.txi) := by
  cases i with
  | cmdOpen | cmdClose | cmdLed | cmdEnroll | cmdDeleteOne | cmdDeleteAll | cmdCancelEnroll =>
    cases h
    exact .inl (congrArg some (sendOnly_txf _ _ s).symm)
  | cmdIsPressed | cmdUserCount | cmdIdentify | cmdLastId =>
    cases h
    exact .inl (congrArg some (sendRecv_txf _ _ _ s).symm)
  | build =>
    cases h
    exact .inl rfl
  | reset =>
    cases h
    exact .inr (.inl ⟨rfl, rfl⟩)
  | txpop =>
    cases h
    exact .inr (.inr (.inl ⟨.inl rfl, advanceTx_txf s, by simpa using le_nextIndex s.txi⟩))
  | ser =>
    cases h
    exact .inr (.inr (.inl ⟨.inr rfl, rfl, Nat.le_of_lt_succ s.txi.isLt⟩))
  | rxpush b =>
    cases h
    exact .inr (.inr (.inr ⟨pushAllRx_txf [b] s, pushAllRx_txi [b] s⟩))
  | parse =>
    obtain ⟨r, hr⟩ := execParse_eq_setResult s
    cases hr.symm.trans h
    exact .inr (.inr (.inr ⟨rfl, rfl⟩))
  | rdstat =>
    obtain ⟨r, hr⟩ := execRdstat_eq_setResult s
    cases hr.symm.trans h
    exact .inr (.inr (.inr ⟨rfl, rfl⟩))
  | request | response | csum | rxclr =>
    cases h
    exact .inr (.inr (.inr ⟨rfl, rfl⟩))

/-- An instruction that does not clear the receive side leaves there what it held and then what the instruction receives
(42_deserializer.md R138). -/
theorem exec_rx_of_keepsReceiving {i : Instr} {s t : State} (h : exec i s = .next t) (hk : keepsReceiving i = true) :
    t.rxf = (pushAllRx (receivedBy i s) s).rxf ∧ t.rxi = (pushAllRx (receivedBy i s) s).rxi := by
  cases i with
  | cmdOpen | cmdClose | cmdLed | cmdEnroll | cmdDeleteOne | cmdDeleteAll | cmdCancelEnroll =>
    cases h
    exact sendOnly_rx _ _ s
  | cmdIsPressed | cmdUserCount | cmdIdentify | cmdLastId | rxclr | reset => cases hk
  | txpop =>
    cases h
    exact ⟨advanceTx_rxf s, advanceTx_rxi s⟩
  | parse =>
    obtain ⟨r, hr⟩ := execParse_eq_setResult s
    cases hr.symm.trans h
    exact ⟨rfl, rfl⟩
  | rdstat =>
    obtain ⟨r, hr⟩ := execRdstat_eq_setResult s
    cases hr.symm.trans h
    exact ⟨rfl, rfl⟩
  | request | response | csum | build | ser | rxpush =>
    cases h
    exact ⟨rfl, rfl⟩

/-- Bytes are received by `RXPUSH`, or by a command; if it begins with no `RXCLR`, then only during its write
(20_memory.md R48; assumption log 4). -/
theorem receivedBy_cases (i : Instr) (s : State) (hk : keepsReceiving i = true) :
    receivedBy i s = [] ∨ (∃ b, i = .rxpush b) ∨
      ((∃ k a, commandOf i = some (k, a)) ∧ receivedBy i s = (writeAnswer s).arrived) := by
  cases i with
  | cmdOpen | cmdClose | cmdLed | cmdEnroll | cmdDeleteOne | cmdDeleteAll | cmdCancelEnroll =>
    exact .inr (.inr ⟨⟨_, _, rfl⟩, rfl⟩)
  | cmdIsPressed | cmdUserCount | cmdIdentify | cmdLastId | rxclr | reset => cases hk
  | rxpush b => exact .inr (.inl ⟨b, rfl⟩)
  | request | response | csum | build | txpop | ser | parse | rdstat => exact .inl rfl

/-! ### Request frames -/

/-- What an instruction builds is a request frame (41_serializer.md R110, R112). -/
theorem isRequest_of_frameBuiltBy {i : Instr} {f : Frame} (h : frameBuiltBy i = some f) : isRequest f := by
  cases i with
  | cmdOpen | cmdClose | cmdLed | cmdIsPressed | cmdEnroll | cmdDeleteOne | cmdDeleteAll | cmdUserCount | cmdIdentify
  | cmdLastId | cmdCancelEnroll | build =>
    cases h
    exact ⟨_, _, _, _, _, rfl⟩
  | request | response | csum | txpop | ser | rxclr | rxpush | parse | rdstat | reset => cases h

/-- An instruction that builds a frame restarts emission (41_serializer.md R112). -/
theorem restartsTx_of_frameBuiltBy {i : Instr} {f : Frame} (h : frameBuiltBy i = some f) : restartsTx i = true := by
  cases i with
  | cmdOpen | cmdClose | cmdLed | cmdIsPressed | cmdEnroll | cmdDeleteOne | cmdDeleteAll | cmdUserCount | cmdIdentify
  | cmdLastId | cmdCancelEnroll | build => rfl
  | request | response | csum | txpop | ser | rxclr | rxpush | parse | rdstat | reset => cases h

/-- A request frame has its markers and its checksum (30_encoding.md R60; 40_checksum.md R99). -/
theorem isRequest.layout {f : Frame} (h : isRequest f) :
    f[0] = 0xF5 ∧ f[7] = 0xF5 ∧ f[6] = checksum f[1] f[2] f[3] f[4] f[5] := by
  obtain ⟨op, p0, p1, p2, p3, rfl⟩ := h
  exact ⟨rfl, rfl, rfl⟩

/-! ### A frame with bytes left to emit -/

/-- With nothing left to emit the frame may be anything (10_state.md R32). -/
theorem txFrameSound_of_idle {s : State} (h : s.txi.val = 8) : txFrameSound s := fun hlt => by omega

/-- A request frame is sound at every index. -/
protected theorem isRequest.txFrameSound {s : State} (h : isRequest s.txf) : txFrameSound s := fun _ => h

/-- The same frame, with no more bytes left to emit than before, stays sound. -/
theorem txFrameSound.of_le {s t : State} (h : txFrameSound s) (htxf : t.txf = s.txf) (htxi : s.txi.val ≤ t.txi.val) :
    txFrameSound t := fun hlt => htxf ▸ h (by omega)

/-- The same transmit side stays sound. -/
theorem txFrameSound.of_same_tx {s t : State} (h : txFrameSound s) (htxf : t.txf = s.txf) (htxi : t.txi = s.txi) :
    txFrameSound t := h.of_le htxf (by rw [htxi])

/-- Every instruction keeps the transmit frame sound (10_state.md R34). -/
theorem exec_keeps_txFrameSound {i : Instr} {s t : State} (hs : txFrameSound s) (h : exec i s = .next t) :
    txFrameSound t := by
  obtain hbuilt | ⟨-, hidle⟩ | ⟨-, htxf, htxi⟩ | ⟨htxf, htxi⟩ := exec_tx_cases h
  · exact (isRequest_of_frameBuiltBy hbuilt).txFrameSound
  · exact txFrameSound_of_idle (by rw [hidle]; rfl)
  · exact hs.of_le htxf htxi
  · exact hs.of_same_tx htxf htxi

/-- Every event does: a transport call issued by hand leaves the transmit side alone (43_commands.md R150). -/
theorem performEvent_keeps_txFrameSound {e : Event} {s t : State} (hs : txFrameSound s)
    (h : performEvent e s = .next t) : txFrameSound t := by
  cases e with
  | issue c =>
    simp only [performEvent] at h
    split at h
    · exact exec_keeps_txFrameSound hs h
    · cases h
  | twrite bytes =>
    cases h
    exact hs.of_same_tx (transportWrite_txf bytes s) (transportWrite_txi bytes s)
  | tread d =>
    cases (execTRead_eq d s).symm.trans h
    exact hs.of_same_tx (transportRead_txf d s) (transportRead_txi d s)

/-- Every step keeps the transmit frame sound (10_state.md R34). -/
theorem step_keeps_txFrameSound {s t : State} (hs : txFrameSound s) (h : step s = .next t) : txFrameSound t := by
  obtain ⟨-, rfl⟩ | ⟨e, rest, -, ⟨-, rfl⟩ | ⟨-, u, hu, rfl⟩⟩ := step_cases s t h
  · exact hs
  · exact hs
  · exact (performEvent_keeps_txFrameSound (s := setIssued rest s) hs hu).of_same_tx (noteBlocked_txf _ u)
      (noteBlocked_txi _ u)

/-! ### The status outputs -/

theorem txv_congr {s t : State} (h : t.txi = s.txi) : txv t = txv s := by
  rw [txv, h, txv]

theorem rxc_congr {s t : State} (h : t.rxi = s.rxi) : rxc t = rxc s := by
  rw [rxc, h, rxc]

/-- `TXV` changes only with an instruction that writes `TXI` (10_state.md R26). -/
theorem txv_changes_only_with_txi {i : Instr} {s t : State} (h : exec i s = .next t) (hne : txv t ≠ txv s) :
    restartsTx i = true ∨ i = .txpop ∨ i = .ser := by
  obtain hbuilt | ⟨rfl, -⟩ | ⟨hemits, -, -⟩ | ⟨-, htxi⟩ := exec_tx_cases h
  · exact .inl (restartsTx_of_frameBuiltBy hbuilt)
  · exact .inl rfl
  · exact .inr hemits
  · exact absurd (txv_congr htxi) hne

/-- Where `RXC` changes with an instruction that does not clear the receive side, bytes were received (10_state.md R26). -/
theorem receivedBy_ne_nil_of_rxc_ne {i : Instr} {s t : State} (h : exec i s = .next t) (hk : keepsReceiving i = true)
    (hne : rxc t ≠ rxc s) : receivedBy i s ≠ [] := by
  intro hnil
  obtain ⟨-, hrxi⟩ := exec_rx_of_keepsReceiving h hk
  rw [hnil, pushAllRx_nil] at hrxi
  exact hne (rxc_congr hrxi)

/-- `RXC` changes only with an instruction that writes `RXI`, or in whose write bytes arrive (10_state.md R26; assumption
log 4). -/
theorem rxc_changes_only_with_rxi {i : Instr} {s t : State} (h : exec i s = .next t) (hne : rxc t ≠ rxc s) :
    (∃ b, i = .rxpush b) ∨ keepsReceiving i = false ∨
      (∃ k a, commandOf i = some (k, a)) ∧ (writeAnswer s).arrived ≠ [] := by
  cases hk : keepsReceiving i with
  | false => exact .inr (.inl rfl)
  | true =>
    have hreceived := receivedBy_ne_nil_of_rxc_ne h hk hne
    obtain hnil | hpush | ⟨hcommand, harrived⟩ := receivedBy_cases i s hk
    · exact absurd hnil hreceived
    · exact .inl hpush
    · exact .inr (.inr ⟨hcommand, harrived ▸ hreceived⟩)

/-! ### What a step takes -/

/-- A code that decodes to an instruction runs it (10_state.md R27). -/
theorem performEvent_of_instr {c : Code} {i : Instr} (s : State) (h : decode Config.vocab c = .instr i) :
    performEvent (.issue c) s = exec i s := by
  simp only [performEvent, h]

/-- A code that is no instruction is refused by name (assumption log 13). -/
theorem performEvent_of_rejected {c : Code} {e : DecodeError} (s : State) (h : decode Config.vocab c = .rejected e) :
    performEvent (.issue c) s = .refused (.undecodable e) := by
  simp only [performEvent, h]

/-- What is refused when it is performed stops the step, if its agent is not blocked (assumption log 13). -/
theorem performIssued_of_refused {e : Issued} {s : State} {r : Refusal} (hb : e.issuer ∉ s.blocked)
    (h : performEvent e.event s = .refused r) : performIssued e s = .refused r := by
  simp only [performIssued, if_neg hb, h]

/-- With nothing issued nothing changes (10_state.md R27). -/
theorem step_of_nothing_issued {s : State} (h : s.issued = []) : step s = .next s := by
  simp only [step, h]

/-- A step performs the first event issued, with that event taken off (assumption log 5). -/
theorem step_of_issued {s : State} {e : Issued} {rest : List Issued} (h : s.issued = e :: rest) :
    step s = performIssued e (setIssued rest s) := by
  simp only [step, h]

/-- A step in which an agent that is not blocked has issued an instruction (20_memory.md R48). -/
theorem step_of_instr {s t : State} {who : Issuer} {c : Code} {i : Instr} {rest : List Issued}
    (hissued : s.issued = ⟨who, .issue c⟩ :: rest) (hb : who ∉ s.blocked) (hc : decode Config.vocab c = .instr i)
    (hexec : exec i (setIssued rest s) = .next t) : step s = .next (noteBlocked who t) := by
  rw [step_of_issued hissued]
  exact performIssued_of_not_blocked _ _ t hb ((performEvent_of_instr _ hc).trans hexec)

/-- A step in which an agent that is not blocked has issued what is no instruction (assumption log 13). -/
theorem step_of_rejected {s : State} {who : Issuer} {c : Code} {e : DecodeError} {rest : List Issued}
    (hissued : s.issued = ⟨who, .issue c⟩ :: rest) (hb : who ∉ s.blocked) (hc : decode Config.vocab c = .rejected e) :
    step s = .refused (.undecodable e) := by
  rw [step_of_issued hissued]
  exact performIssued_of_refused hb (performEvent_of_rejected _ hc)

/-- A table word is decoded as the code an agent would issue (assumption log 6). -/
theorem decode_tableCode {nbits w : Nat} {i : Instr} (h : decodeTableWord nbits w = some i) :
    decode Config.vocab (tableCode nbits w) = .instr i := by
  unfold decodeTableWord at h
  split at h
  · cases h
    assumption
  · cases h

end Sys2Proof.Machine

open Sys2Proof Sys2Proof.Machine

/-- Settles O51: every instruction writes a request frame whole, resets, emits from the frame there, or leaves the
transmit side alone, and the transport calls do the last. -/
theorem stepKeepsUnsentFrameSound : Obligations.StepKeepsUnsentFrameSound := by
  unfold Obligations.StepKeepsUnsentFrameSound
  intro s t hs h
  exact step_keeps_txFrameSound hs h

/-- Settles O12: of the four things an instruction can do to the transmit side only building a frame, and `RESET`, write
`TXF`. -/
theorem txfIsWrittenOnlyAsBuiltFrame : Obligations.TxfIsWrittenOnlyAsBuiltFrame := by
  unfold Obligations.TxfIsWrittenOnlyAsBuiltFrame
  intro i s t h hreset
  obtain hbuilt | ⟨hi, -⟩ | ⟨-, htxf, -⟩ | ⟨htxf, -⟩ := exec_tx_cases h
  · have hrequest := isRequest_of_frameBuiltBy hbuilt
    have hlayout := hrequest.layout
    obtain ⟨op, p0, p1, p2, p3, hframe⟩ := hrequest
    exact .inr ⟨⟨op, p0, p1, p2, p3, hframe, hbuilt⟩, hlayout⟩
  · exact absurd hi hreset
  · exact .inl htxf
  · exact .inl htxf

/-- Settles O24: the flags are read off the indices, so they change only where an index does. -/
theorem flagsFollowTheIndices : Obligations.FlagsFollowTheIndices := by
  unfold Obligations.FlagsFollowTheIndices
  exact ⟨fun s => ⟨txv_iff s, rxc_iff s⟩,
    fun _ _ _ h => ⟨txv_changes_only_with_txi h, rxc_changes_only_with_rxi h⟩⟩

/-- Settles O48: the first event issued is performed, and its issuer noted only where the result is pending. -/
theorem stepRunsTheDecodedInstruction : Obligations.StepRunsTheDecodedInstruction := by
  unfold Obligations.StepRunsTheDecodedInstruction
  intro s t who c i rest hissued hb hc hexec
  have hstep : step s = .next (noteBlocked who t) := step_of_instr hissued hb hc hexec
  exact ⟨hstep, fun hresult => by rw [hstep, noteBlocked_of_ne_pending who t hresult, hexec]⟩

/-- Settles O49: an empty list, a rejected code, and a table word put in front with nobody blocked. -/
theorem stepActsOnlyOnWhatIsIssued : Obligations.StepActsOnlyOnWhatIsIssued := by
  unfold Obligations.StepActsOnlyOnWhatIsIssued
  refine ⟨fun s => step_of_nothing_issued, fun s who c e rest => step_of_rejected, ?_⟩
  intro s t nbits w i hword hexec
  have hissued : (s.withFetchWord nbits w).issued = ⟨tableIssuer nbits w, .issue (tableCode nbits w)⟩ :: s.issued := rfl
  exact step_of_instr hissued List.not_mem_nil (decode_tableCode hword) hexec

/-- Settles O53: after reset nothing has been emitted and nothing is left to emit. -/
theorem resetStateIsSound : Obligations.ResetStateIsSound := by
  unfold Obligations.ResetStateIsSound
  have hsound : txFrameSound State.reset := txFrameSound_of_idle rfl
  exact ⟨hsound, hsound, [], by simp, rfl⟩
end

section
/-! PROOF. 30_encoding.md: frames as table words (R61), frames and names as instructions (R67 to R75), and the AckCode
names (R78). -/

namespace Sys2Proof

/-! ### What exactly one member of a list satisfies -/

/-- In a list that holds everything once, exactly `x` is kept when `x` alone satisfies the test. -/
theorem filter_eq_singleton_iff {α : Type} {l : List α} {p : α → Bool} (hnodup : l.Nodup) (hall : ∀ x, x ∈ l)
    (x : α) : l.filter p = [x] ↔ p x = true ∧ ∀ y, p y = true → y = x := by
  rw [← List.perm_singleton, List.perm_ext_iff_of_nodup (hnodup.filter p) (List.nodup_singleton x)]
  simp only [List.mem_filter, hall, true_and, List.mem_singleton]
  exact ⟨fun h => ⟨(h x).2 rfl, fun y => (h y).1⟩,
    fun ⟨hx, hunique⟩ y => ⟨hunique y, fun hy => hy ▸ hx⟩⟩

/-- The list of commands is complete (30_encoding.md R67). -/
theorem mem_commands (k : Command) : k ∈ commands := by cases k <;> decide

theorem commands_nodup : commands.Nodup := by decide

namespace Machine

/-- The list of names is complete (30_encoding.md R69; assumption log 19). -/
theorem mem_ackNames (n : AckName) : n ∈ ackNames := by cases n <;> decide

theorem ackNames_nodup : ackNames.Nodup := by decide

/-! ### The AckCode names -/

/-- `AckDecode` gives the one name that has the value (30_encoding.md R78). -/
theorem ackDecode_eq_some_iff (v : Vocab) (b : Byte) (n : AckName) :
    ackDecode v b = some n ↔ ackValue v n = b ∧ ∀ m, ackValue v m = b → m = n := by
  have hfilter : ackDecode v b = some n ↔ ackNames.filter (fun m => ackValue v m == b) = [n] := by
    unfold ackDecode
    split
    next m h => simp [h]
    next hne => exact ⟨fun h => absurd h (by simp), fun h => absurd h (hne n)⟩
  rw [hfilter, filter_eq_singleton_iff ackNames_nodup mem_ackNames]
  simp only [beq_iff_eq]

/-- Under `OpcodesDistinct` for the AckCode values no two names share a value (70_reset_and_hazards.md R217). -/
theorem ackValue_injective_of_acksDistinct {v : Vocab} (h : acksDistinct v = true) :
    Function.Injective (ackValue v) := fun m n hmn =>
  List.inj_on_of_nodup_map (of_decide_eq_true h) (mem_ackNames m) (mem_ackNames n) hmn

/-! ### A frame as a table word -/

section
variable {w : Nat} (x : BitVec w) (b : Byte)

theorem extractLsb'_append_byte_of_le {n : Nat} (h : 8 ≤ n) :
    (x ++ b).extractLsb' n 8 = x.extractLsb' (n - 8) 8 := BitVec.extractLsb'_append_eq_of_le h

theorem extractLsb'_append_byte_zero : (x ++ b).extractLsb' 0 8 = b :=
  (BitVec.extractLsb'_append_eq_of_add_le (by omega)).trans BitVec.extractLsb'_eq_self
end

/-- The bytes of a table word are its eight bytes from bit 63 down (30_encoding.md R61). -/
theorem tableBytes_eq_map_extractLsb' (x : BitVec 64) :
    tableBytes 64 x.toNat = (List.range 8).map fun k => x.extractLsb' (8 * (7 - k)) 8 := rfl

/-- Byte 0 of a frame is its word's most significant byte (30_encoding.md R61). -/
theorem tableBytes_frameWord (f : Frame) : tableBytes 64 (frameWord f).toNat = serialize f := by
  rw [tableBytes_eq_map_extractLsb']
  simp [List.range_succ, frameWord, serialize, extractLsb'_append_byte_of_le, extractLsb'_append_byte_zero,
    BitVec.extractLsb'_eq_self, -serialize_eq_toList]

/-- Masking a frame's word masks its bytes: the concatenation is taken apart from its last byte on. -/
theorem frameWord_and_frameWord (f g : Frame) :
    frameWord f &&& frameWord g = frameWord (Vector.zipWith (· &&& ·) f g) := by
  simp only [frameWord, Vector.getElem_zipWith]
  iterate 7 refine BitVec.and_append.trans (congrArg (· ++ _) ?_)
  rfl

/-- A mask over both markers and some bits of the parameters, all of them 0, leaves the markers of a request frame. -/
theorem frameWord_buildRequest_and_mask {p0 p1 p2 p3 m0 m1 m2 m3 : Byte} (op : Byte) (h0 : p0 &&& m0 = 0)
    (h1 : p1 &&& m1 = 0) (h2 : p2 &&& m2 = 0) (h3 : p3 &&& m3 = 0) :
    frameWord (buildRequest op p0 p1 p2 p3) &&& frameWord #v[0xFF, 0, m0, m1, m2, m3, 0, 0xFF] =
      0xF5000000000000F5 := by
  have hbytes : Vector.zipWith (· &&& ·) (buildRequest op p0 p1 p2 p3) #v[0xFF, 0, m0, m1, m2, m3, 0, 0xFF] =
      #v[0xF5, 0, 0, 0, 0, 0, 0, 0xF5] := by
    simp [buildRequest, requestLayout, Config.marker, h0, h1, h2, h3]
  rw [frameWord_and_frameWord, hbytes]
  rfl

end Machine

/-! ### A request frame as an instruction -/

open Machine

/-- A frame fits a command's row when it has the row's opcode and its zero parameters (30_encoding.md R67). -/
theorem fitsCommand_iff {v : Vocab} {op p0 p1 p2 p3 : Byte} {k : Command} :
    fitsCommand v op p0 p1 p2 p3 k = true ↔
      (p1 = 0 ∧ p2 = 0 ∧ p3 = 0) ∧ (commandTakesOperand k = true ∨ p0 = 0) ∧ op = commandOpcode v k := by
  simp [fitsCommand, and_assoc]

/-- Every row of the table leaves the last three parameters 0, so any other frame fits none (30_encoding.md R67). -/
theorem fittingCommands_eq_nil {v : Vocab} {op p0 p1 p2 p3 : Byte} (h : ¬(p1 = 0 ∧ p2 = 0 ∧ p3 = 0)) :
    fittingCommands v op p0 p1 p2 p3 = [] :=
  List.filter_eq_nil_iff.2 fun _ _ hfits => h (fitsCommand_iff.1 hfits).1

/-- A frame that fits one command's row stands for that command (assumption log 6). -/
theorem classifyRequest_of_fits_one {v : Vocab} {op p0 p1 p2 p3 : Byte} {k : Command} (t : Timeout)
    (h : fittingCommands v op p0 p1 p2 p3 = [k]) : classifyRequest v op p0 p1 p2 p3 t = commandInstr p0 t k := by
  simp only [classifyRequest, h]

/-- A frame that fits no row, or more than one, is the general request (assumption log 6). -/
theorem classifyRequest_of_general {v : Vocab} {op p0 p1 p2 p3 : Byte} (t : Timeout)
    (h : (fittingCommands v op p0 p1 p2 p3).length ≠ 1) :
    classifyRequest v op p0 p1 p2 p3 t = .request op p0 p1 p2 p3 := by
  unfold classifyRequest
  split
  next k hk => exact absurd (congrArg List.length hk) h
  next => rfl

/-- A request frame stands for the general request or for a command with its opcode (30_encoding.md R67, R68). -/
theorem classifyRequest_cases (v : Vocab) (op p0 p1 p2 p3 : Byte) (t : Timeout) :
    classifyRequest v op p0 p1 p2 p3 t = .request op p0 p1 p2 p3 ∨
      ∃ k, classifyRequest v op p0 p1 p2 p3 t = commandInstr p0 t k ∧ op = commandOpcode v k := by
  by_cases hone : (fittingCommands v op p0 p1 p2 p3).length = 1
  · obtain ⟨k, hk⟩ := List.length_eq_one_iff.1 hone
    have hmem : k ∈ fittingCommands v op p0 p1 p2 p3 := hk ▸ List.mem_singleton_self k
    obtain ⟨-, -, hop⟩ := fitsCommand_iff.1 (List.of_mem_filter hmem)
    exact .inr ⟨k, classifyRequest_of_fits_one t hk, hop⟩
  · exact .inl (classifyRequest_of_general t hone)

/-- A request frame carries its markers and its own checksum, so it always decodes (30_encoding.md R60, R61). -/
theorem decode_requestCode (v : Vocab) (op p0 p1 p2 p3 : Byte) (t : Timeout) :
    decode v (requestCode op p0 p1 p2 p3 t) = .instr (classifyRequest v op p0 p1 p2 p3 t) := by
  have hmarkers : markersOK (buildRequest op p0 p1 p2 p3) = true := rfl
  have hchecksum : checksumOK (buildRequest op p0 p1 p2 p3) = true := beq_self_eq_true (checksum op p0 p1 p2 p3)
  simp only [requestCode, decode, serialize, decodeFrame]
  exact (if_pos hmarkers).trans (if_pos hchecksum)

/-- A frame is always eight bytes long (30_encoding.md R73). -/
theorem decode_frame_of_length_ne (v : Vocab) (dir : Direction) {bytes : List Byte} (t : Timeout)
    (h : bytes.length ≠ 8) : decode v (.frame dir bytes t) = .rejected (.badLength bytes.length) := by
  change decodeFrame v dir bytes t = _
  unfold decodeFrame
  split
  · exact absurd rfl h
  · rfl

/-! ### Commands -/

/-- The byte a command puts in parameter 0: its operand, or 0 when it has none (30_encoding.md R66, R67). -/
def operandByte (k : Command) (a : Byte) : Byte := if commandTakesOperand k then a else 0

theorem operandByte_of_takes {k : Command} (a : Byte) (h : commandTakesOperand k = true) : operandByte k a = a :=
  if_pos h

theorem operandByte_of_takes_none {k : Command} (a : Byte) (h : commandTakesOperand k = false) :
    operandByte k a = 0 := if_neg (by simp [h])

/-- A command without an operand does not depend on parameter 0. -/
theorem commandInstr_operandByte (a : Byte) (t : Timeout) (k : Command) :
    commandInstr (operandByte k a) t k = commandInstr a t k := by cases k <;> rfl

/-- A command's own frame fits its row (30_encoding.md R67). -/
theorem fitsCommand_operandByte (v : Vocab) (k : Command) (a : Byte) :
    fitsCommand v (commandOpcode v k) (operandByte k a) 0 0 0 k = true := by
  refine fitsCommand_iff.2 ⟨⟨rfl, rfl, rfl⟩, ?_, rfl⟩
  cases h : commandTakesOperand k with
  | true => exact .inl rfl
  | false => exact .inr (operandByte_of_takes_none a h)

/-- Under `OpcodesDistinct` no two commands share an opcode (70_reset_and_hazards.md R217). -/
theorem commandOpcode_injective_of_opcodesDistinct {v : Vocab} (h : opcodesDistinct v = true) :
    Function.Injective (commandOpcode v) := fun k m hkm =>
  List.inj_on_of_nodup_map (of_decide_eq_true h) (mem_commands k) (mem_commands m) hkm

/-- Under `OpcodesDistinct` a command's frame fits no other row (70_reset_and_hazards.md R217). -/
theorem commandUnambiguous_of_opcodesDistinct {v : Vocab} (h : opcodesDistinct v = true) (k : Command) (a : Byte) :
    commandUnambiguous v k (operandByte k a) = true := by
  refine beq_iff_eq.2 ((filter_eq_singleton_iff commands_nodup mem_commands k).2
    ⟨fitsCommand_operandByte v k a, fun m hm => ?_⟩)
  obtain ⟨-, -, hop⟩ := fitsCommand_iff.1 hm
  exact (commandOpcode_injective_of_opcodesDistinct h hop).symm

/-- The frame of an unambiguous command decodes to the command (assumption log 6). -/
theorem decode_requestCode_of_unambiguous {v : Vocab} {k : Command} {a : Byte} (t : Timeout)
    (h : commandUnambiguous v k a = true) :
    decode v (requestCode (commandOpcode v k) a 0 0 0 t) = .instr (commandInstr a t k) := by
  rw [decode_requestCode, classifyRequest_of_fits_one t (beq_iff_eq.1 h)]

/-! ### The encoding of an instruction -/

/-- A command is encoded as its request frame, and is well formed when it is unambiguous (30_encoding.md R67). -/
theorem encode_of_commandOf (v : Vocab) {i : Instr} {k : Command} {a : Byte} (h : commandOf i = some (k, a)) :
    ∃ t, encode v i = requestCode (commandOpcode v k) a 0 0 0 t ∧ commandInstr a t k = i ∧
      wellFormed v i = commandUnambiguous v k a := by
  cases i with
  | cmdOpen | cmdClose | cmdLed | cmdEnroll | cmdDeleteOne | cmdDeleteAll | cmdCancelEnroll =>
    cases h
    exact ⟨noTimeout, rfl, rfl, rfl⟩
  | cmdIsPressed t | cmdUserCount t | cmdIdentify t | cmdLastId t =>
    cases h
    exact ⟨t, rfl, rfl, rfl⟩
  | request | response | csum | build | txpop | ser | rxclr | rxpush | parse | rdstat | reset => cases h

/-- The encoding of a well-formed command decodes to it. -/
theorem decode_encode_of_commandOf {v : Vocab} {i : Instr} {k : Command} {a : Byte} (h : commandOf i = some (k, a))
    (hwf : wellFormed v i = true) : decode v (encode v i) = .instr i := by
  obtain ⟨t, hencode, hinstr, hunambiguous⟩ := encode_of_commandOf v h
  rw [hencode, decode_requestCode_of_unambiguous t (hunambiguous ▸ hwf), hinstr]

/-- The encoding of a well-formed general request decodes to it. -/
theorem decode_encode_request {v : Vocab} {op p0 p1 p2 p3 : Byte} (h : requestIsGeneral v op p0 p1 p2 p3 = true) :
    decode v (encode v (.request op p0 p1 p2 p3)) = .instr (.request op p0 p1 p2 p3) :=
  (decode_requestCode v op p0 p1 p2 p3 noTimeout).trans
    (congrArg Decoded.instr (classifyRequest_of_general noTimeout (bne_iff_ne.1 h)))

/-- The name and operands of an instruction decode to it (30_encoding.md R74, R75). -/
theorem decode_encodeNamed (v : Vocab) (i : Instr) : decode v (encodeNamed i) = .instr i := by cases i <;> rfl

end Sys2Proof

open Sys2Proof Sys2Proof.Machine

/-- Settles O55: a command is encoded as a frame that fits its row alone, a general request as one that does not fit one
row alone, a response as its eight bytes, and an operation as its name. -/
theorem decodeOfEncodeIsTheInstruction : Obligations.DecodeOfEncodeIsTheInstruction := by
  unfold Obligations.DecodeOfEncodeIsTheInstruction
  intro v i hwf
  have hnamed : decode v (encodeNamed i) = .instr i := decode_encodeNamed v i
  cases i with
  | cmdOpen | cmdClose | cmdLed | cmdIsPressed | cmdEnroll | cmdDeleteOne | cmdDeleteAll | cmdUserCount | cmdIdentify
  | cmdLastId | cmdCancelEnroll => exact decode_encode_of_commandOf rfl hwf
  | request => exact decode_encode_request hwf
  | response => rfl
  | csum | build | txpop | ser | rxclr | rxpush | parse | rdstat | reset => exact hnamed

/-- Settles O38: the names that have the value are listed once each, and distinct values have one name. -/
theorem ackDecodeIsTheUniqueName : Obligations.AckDecodeIsTheUniqueName := by
  unfold Obligations.AckDecodeIsTheUniqueName
  intro v b
  refine ⟨ackDecode_eq_some_iff v b, ?_, fun hdistinct n => ?_⟩
  · simp only [Option.eq_none_iff_forall_ne_some, ne_eq, ackDecode_eq_some_iff, not_exists]
  · exact (ackDecode_eq_some_iff v _ n).2 ⟨rfl, fun _ hm => ackValue_injective_of_acksDistinct hdistinct hm⟩

/-- Settles O56: with distinct opcodes a command's frame fits its own row and no other. -/
theorem distinctOpcodesMakeCommandsDecodable : Obligations.DistinctOpcodesMakeCommandsDecodable := by
  unfold Obligations.DistinctOpcodesMakeCommandsDecodable
  intro v k a t hdistinct
  refine ⟨operandByte k a, ?_, operandByte_of_takes a, operandByte_of_takes_none a⟩
  rw [decode_requestCode_of_unambiguous t (commandUnambiguous_of_opcodesDistinct hdistinct k a),
    commandInstr_operandByte]

/-- Settles O57: a table row's mask is the word of a frame that is 0xFF at the markers and at the row's zero
parameters. -/
theorem frameWordsHaveTheTablesFixedBits : Obligations.FrameWordsHaveTheTablesFixedBits := by
  unfold Obligations.FrameWordsHaveTheTablesFixedBits
  refine ⟨tableBytes_frameWord, fun op p0 p1 p2 p3 => ?_, fun op a => ?_, fun op => ?_⟩
  · exact frameWord_buildRequest_and_mask (m0 := 0) (m1 := 0) (m2 := 0) (m3 := 0) op BitVec.and_zero BitVec.and_zero
      BitVec.and_zero BitVec.and_zero
  · exact frameWord_buildRequest_and_mask (m0 := 0) (m1 := 0xFF) (m2 := 0xFF) (m3 := 0xFF) op BitVec.and_zero rfl rfl
      rfl
  · exact frameWord_buildRequest_and_mask (m0 := 0xFF) (m1 := 0xFF) (m2 := 0xFF) (m3 := 0xFF) op rfl rfl rfl rfl

/-- Settles O58: a request frame has its markers and checksum, of a response nothing but the length is checked, and the
length is checked first. -/
theorem everyFrameDecodes : Obligations.EveryFrameDecodes := by
  unfold Obligations.EveryFrameDecodes
  refine ⟨fun v op p0 p1 p2 p3 t => ?_, fun _ _ _ _ _ _ _ _ _ _ => rfl,
    fun v dir _ t => decode_frame_of_length_ne v dir t⟩
  exact ⟨_, decode_requestCode v op p0 p1 p2 p3 t, classifyRequest_cases v op p0 p1 p2 p3 t⟩

/-- Settles O59: vector B6 is a built frame whose parameters fit no row of a command, X9 eight bytes from the module, and
the others are selected by name. -/
theorem sampleCodesDecode : Obligations.SampleCodesDecode := by
  unfold Obligations.SampleCodesDecode
  intro v
  have hB6 : classifyRequest v 0x0B 0xF5 0xF5 0xF5 0xF5 ⟨0⟩ = .request 0x0B 0xF5 0xF5 0xF5 0xF5 :=
    classifyRequest_of_general ⟨0⟩ (by rw [fittingCommands_eq_nil (by decide)]; decide)
  refine ⟨?_, rfl, decode_encodeNamed v (.csum 0x2A 0x03 0x00 0x00 0x00), decode_encodeNamed v (.rxpush 0xF5),
    decode_encodeNamed v (.cmdLed 0x07), decode_encodeNamed v .reset⟩
  rw [← hB6]
  exact decode_requestCode v 0x0B 0xF5 0xF5 0xF5 0xF5 ⟨0⟩
end

section
/-! PROOF. 40_checksum.md: the checksum's value (R90, R95, R96, R98), what `CSUM` leaves (R93), and the operations that
repeated at once change nothing more. -/

namespace Sys2Proof.Machine

open Sys2Proof.Claims

variable (op p0 p1 p2 p3 : Byte)

/-! ### The five bytes as an integer -/

/-- Five bytes sum to at most 5 x 255 (40_checksum.md R95). -/
theorem byteSum_le : byteSum op p0 p1 p2 p3 ≤ 1275 := by
  unfold byteSum
  omega

/-- `Sum16` is the integer sum (40_checksum.md R95). -/
theorem sum16_toNat_eq_byteSum : (sum16 op p0 p1 p2 p3).toNat = byteSum op p0 p1 p2 p3 := sum16_toNat op p0 p1 p2 p3

theorem sum16_eq_ofNat : sum16 op p0 p1 p2 p3 = BitVec.ofNat 16 (byteSum op p0 p1 p2 p3) := by
  rw [← sum16_toNat_eq_byteSum, BitVec.ofNat_toNat, BitVec.setWidth_eq]

/-- `Checksum` is the integer sum modulo 256 (40_checksum.md R90). -/
theorem checksum_eq_ofNat : checksum op p0 p1 p2 p3 = BitVec.ofNat 8 (byteSum op p0 p1 p2 p3) :=
  BitVec.eq_of_toNat_eq ((checksum_toNat op p0 p1 p2 p3).trans (BitVec.toNat_ofNat _ 8).symm)

/-- The carries out of the low byte of an accumulator that holds at most five bytes (40_checksum.md R95). -/
theorem carries_of_le {h : Half} (hle : h.toNat ≤ 1275) :
    h.extractLsb' 11 5 = 0 ∧ (h.extractLsb' 8 8).toNat ≤ 4 := by
  constructor
  · apply BitVec.eq_of_toNat_eq
    rw [BitVec.extractLsb'_toNat, Nat.shiftRight_eq_div_pow, Nat.div_eq_of_lt (by omega)]
    rfl
  · rw [BitVec.extractLsb'_toNat, Nat.shiftRight_eq_div_pow]
    omega

/-! ### Truncation and order -/

/-- Truncation keeps addition: carries go upwards only (40_checksum.md R96). -/
@[simp] theorem lowByte_add (g h : Half) : lowByte (g + h) = lowByte g + lowByte h := by
  apply BitVec.eq_of_toNat_eq
  simp only [lowByte_toNat, BitVec.toNat_add]
  omega

@[simp] theorem lowByte_zext16 (b : Byte) : lowByte (zext16 b) = b := by
  apply BitVec.eq_of_toNat_eq
  rw [lowByte_toNat, zext16, BitVec.toNat_setWidth]
  omega

/-- Accumulating in 16 bits and truncating is the sum in 8 bits (40_checksum.md R96). -/
theorem lowByte_accumulate (bs : List Byte) : lowByte (accumulate bs) = bs.sum := by
  induction bs with
  | nil => rfl
  | cons b bs ih => rw [accumulate_cons, lowByte_add, lowByte_zext16, ih, List.sum_cons]

/-- Accumulating and truncating is the integer sum modulo 256 (40_checksum.md R96). -/
theorem lowByte_accumulate_toNat (bs : List Byte) :
    (lowByte (accumulate bs)).toNat = (bs.map BitVec.toNat).sum % 256 := by
  rw [lowByte_toNat, accumulate_toNat, Nat.mod_mod_of_dvd _ (by decide)]

/-- The order of the bytes does not matter (40_checksum.md R96). -/
theorem accumulate_perm {bs cs : List Byte} (h : bs.Perm cs) : accumulate bs = accumulate cs := by
  apply BitVec.eq_of_toNat_eq
  rw [accumulate_toNat, accumulate_toNat, (h.map BitVec.toNat).sum_eq]

/-- Changing one byte, at any place, changes the truncated sum: the other bytes cancel (40_checksum.md R98). -/
theorem lowByte_accumulate_ne_of_ne {x y : Byte} (pre post : List Byte) (h : x ≠ y) :
    lowByte (accumulate (pre ++ x :: post)) ≠ lowByte (accumulate (pre ++ y :: post)) := by
  simp only [lowByte_accumulate, List.sum_append, List.sum_cons]
  exact fun heq => h (add_right_cancel (add_left_cancel heq))

/-! ### What the instructions leave -/

/-- What `CSUM` leaves (40_checksum.md R93). -/
theorem exec_csum_eq (s : State) :
    exec (.csum op p0 p1 p2 p3) s =
      .next { s with acc := sum16 op p0 p1 p2 p3, result := .byte (checksum op p0 p1 p2 p3) } := rfl

/-- What `BUILD` leaves (41_serializer.md R112). -/
theorem exec_build_eq (s : State) :
    exec (.build op p0 p1 p2 p3) s =
      .next { s with
        txf := buildRequest op p0 p1 p2 p3
        txi := 0
        acc := sum16 op p0 p1 p2 p3
        result := .nothing } := rfl

/-- What `RXCLR` leaves (42_deserializer.md R132). -/
theorem exec_rxclr_eq (s : State) : exec .rxclr s = .next { s with rxi := 0, result := .nothing } := rfl

/-- What `PARSE` answers: a full register's frame, else `ShortFrame` (42_deserializer.md R134). -/
theorem exec_parse_eq (s : State) :
    exec .parse s = .next (setResult (if s.rxi.val = 8 then .frame s.rxf else .raised .shortFrame) s) := by
  by_cases h : s.rxi.val = 8
  · simp [exec, execParse, receivedFrame, h]
  · simp [exec, execParse, receivedFrame, raiseError, h]

/-- What `RDSTAT` answers: a full register's byte 2, else `ShortFrame` (42_deserializer.md R135). -/
theorem exec_rdstat_eq (s : State) :
    exec .rdstat s = .next (setResult (if s.rxi.val = 8 then .byte s.rxf[2] else .raised .shortFrame) s) := by
  by_cases h : s.rxi.val = 8
  · simp [exec, execRdstat, receivedStatus, h]
  · simp [exec, execRdstat, receivedStatus, raiseError, h]

variable {op p0 p1 p2 p3} in
/-- `CSUM` and `BUILD` leave the sum of their operands in `ACC` (40_checksum.md R91). -/
theorem acc_of_exec_csum_or_build {s t : State}
    (h : exec (.csum op p0 p1 p2 p3) s = .next t ∨ exec (.build op p0 p1 p2 p3) s = .next t) :
    t.acc = sum16 op p0 p1 p2 p3 := by
  obtain h | h := h
  · rw [exec_csum_eq] at h
    cases h
    rfl
  · rw [exec_build_eq] at h
    cases h
    rfl

end Sys2Proof.Machine

open Sys2Proof Sys2Proof.Machine

/-- Settles O4: `ACC` holds the integer sum, whose bound leaves at most 4 carries. -/
theorem accumulatorNeverOverflows : Obligations.AccumulatorNeverOverflows := by
  unfold Obligations.AccumulatorNeverOverflows
  intro op p0 p1 p2 p3 s t h
  have hsum : t.acc.toNat = Claims.byteSum op p0 p1 p2 p3 := by
    rw [acc_of_exec_csum_or_build h, sum16_toNat_eq_byteSum]
  have hle : t.acc.toNat ≤ 1275 := hsum ▸ byteSum_le op p0 p1 p2 p3
  exact ⟨hsum, hle, carries_of_le hle⟩

/-- Settles O5: truncation keeps addition, and addition does not depend on the order. -/
theorem checksumFormsAgreeInAnyOrder : Obligations.ChecksumFormsAgreeInAnyOrder := by
  unfold Obligations.ChecksumFormsAgreeInAnyOrder
  refine ⟨fun bs => ⟨?_, lowByte_accumulate_toNat bs⟩, fun bs cs => accumulate_perm,
    fun op p0 p1 p2 p3 q q0 q1 q2 q3 h => congrArg lowByte (accumulate_perm h), ?_⟩
  · rw [lowByte_accumulate, List.sum_eq_foldl]
  · decide

/-- Settles O6: the changed byte is one of the five accumulated, and the other four cancel. -/
theorem oneChangedByteChangesChecksum : Obligations.OneChangedByteChangesChecksum := by
  unfold Obligations.OneChangedByteChangesChecksum
  refine ⟨fun op p0 p1 p2 p3 x => ⟨?_, ?_, ?_, ?_, ?_⟩, by decide⟩
  · exact lowByte_accumulate_ne_of_ne [] [p0, p1, p2, p3]
  · exact lowByte_accumulate_ne_of_ne [op] [p1, p2, p3]
  · exact lowByte_accumulate_ne_of_ne [op, p0] [p2, p3]
  · exact lowByte_accumulate_ne_of_ne [op, p0, p1] [p3]
  · exact lowByte_accumulate_ne_of_ne [op, p0, p1, p2] []

/-- Settles O3: `CSUM` leaves `Sum16` and answers `Checksum`, which are the integer sum modulo 65536 and modulo 256. -/
theorem csumReturnsSumModulo256 : Obligations.CsumReturnsSumModulo256 := by
  unfold Obligations.CsumReturnsSumModulo256
  intro op p0 p1 p2 p3 s
  refine ⟨?_, BitVec.toNat_ofNat _ 8⟩
  rw [exec_csum_eq, sum16_eq_ofNat, checksum_eq_ofNat]

/-- Settles O25: each of the five instructions writes nothing that it reads. -/
theorem readsAndClearsAreIdempotent : Obligations.ReadsAndClearsAreIdempotent := by
  unfold Obligations.ReadsAndClearsAreIdempotent
  rintro i s (rfl | rfl | rfl | ⟨op, p0, p1, p2, p3, rfl⟩ | ⟨op, p0, p1, p2, p3, rfl⟩)
  · exact ⟨_, exec_parse_eq s, exec_parse_eq (setResult _ s)⟩
  · exact ⟨_, exec_rdstat_eq s, exec_rdstat_eq (setResult _ s)⟩
  · exact ⟨_, exec_rxclr_eq s, exec_rxclr_eq _⟩
  · exact ⟨_, exec_csum_eq op p0 p1 p2 p3 s, exec_csum_eq op p0 p1 p2 p3 _⟩
  · exact ⟨_, exec_build_eq op p0 p1 p2 p3 s, exec_build_eq op p0 p1 p2 p3 _⟩
end

section
/-! PROOF. 41_serializer.md: what `BUILD`, `TXPOP` and `SER` leave (R110 to R115), and that the two sides commute
(R117). -/

namespace Sys2Proof.Machine

open Sys2Proof.Claims

/-! ### The built frame -/

/-- `BuildRequest` with its checksum byte written out (41_serializer.md R110). -/
theorem buildRequest_eq (op p0 p1 p2 p3 : Byte) :
    buildRequest op p0 p1 p2 p3 = #v[0xF5, op, p0, p1, p2, p3, BitVec.ofNat 8 (byteSum op p0 p1 p2 p3), 0xF5] := by
  rw [buildRequest, checksum_eq_ofNat]
  rfl

/-- A request frame has its markers and its checksum (30_encoding.md R77). -/
theorem isRequest.markersOK_and_checksumOK {f : Frame} (h : isRequest f) :
    markersOK f = true ∧ checksumOK f = true := by
  obtain ⟨op, p0, p1, p2, p3, rfl⟩ := h
  exact ⟨rfl, beq_self_eq_true (checksum op p0 p1 p2 p3)⟩

/-! ### `TXPOP` and `SER` -/

theorem nextIndex_val (i : Index) : (nextIndex i).val = min 8 (i.val + 1) := rfl

/-- What `TXPOP` leaves (41_serializer.md R113). -/
theorem exec_txpop_eq (s : State) :
    exec .txpop s = .next (setResult (.popped (nextTxByte s)) (advanceTx s)) := rfl

/-- What `SER` leaves (41_serializer.md R114). -/
theorem exec_ser_eq (s : State) :
    exec .ser s = .next { s with
      txi := 8
      emitted := s.emitted ++ remainingTxBytes s
      result := .bytes (remainingTxBytes s) } := rfl

/-- With `TXI = 8` nothing is left to emit. -/
theorem remainingTxBytes_of_eq (s : State) (h : s.txi.val = 8) : remainingTxBytes s = [] := by
  simp [remainingTxBytes, h]

/-- Below 8 the next byte to emit is `TXF[TXI]`. -/
theorem remainingTxBytes_of_lt (s : State) (h : s.txi.val < 8) :
    remainingTxBytes s = s.txf[s.txi.val] :: s.txf.toList.drop (s.txi.val + 1) := by
  rw [remainingTxBytes, serialize_eq_toList, List.drop_eq_getElem_cons (by simpa using h), Vector.getElem_toList]

/-- What is left to emit is what `TXPOP` emits, then what is left after it (41_serializer.md R113, R114). -/
theorem remainingTxBytes_eq_append (s : State) :
    remainingTxBytes s = (nextTxByte s).toList ++ remainingTxBytes (advanceTx s) := by
  rcases Nat.lt_or_ge s.txi.val 8 with hlt | hge
  · rw [remainingTxBytes_of_lt s hlt, nextTxByte_of_lt s hlt, advanceTx_of_lt s hlt, remainingTxBytes,
      serialize_eq_toList]
    rfl
  · have h8 : s.txi.val = 8 := by omega
    rw [nextTxByte_of_eq s h8, advanceTx_of_eq s h8]
    rfl

/-- With nothing left to emit `SER` changes nothing (41_serializer.md R114). -/
theorem finishTx_of_eq (s : State) (h : s.txi.val = 8) : finishTx s = s := by
  have h8 : s.txi = 8 := Fin.ext h
  rw [finishTx, remainingTxBytes_of_eq s h, addEmitted, List.append_nil, setTxi, ← h8]

/-- A pop before `SER` makes no difference to what has been emitted in the end (41_serializer.md R115). -/
theorem finishTx_advanceTx (s : State) : finishTx (advanceTx s) = finishTx s := by
  have hbytes : s.emitted ++ remainingTxBytes s =
      s.emitted ++ (nextTxByte s).toList ++ remainingTxBytes (advanceTx s) := by
    rw [List.append_assoc, ← remainingTxBytes_eq_append]
  rw [finishTx, finishTx, addEmitted, addEmitted, hbytes, advanceTx_eq_addEmitted]
  rfl

/-! ### Bytes received among the pops -/

/-- Bytes received before or after a pop leave the same state (41_serializer.md R117). -/
theorem pushAllRx_advanceTx (bs : List Byte) (s : State) :
    pushAllRx bs (advanceTx s) = advanceTx (pushAllRx bs s) := by
  rw [pushAllRx_of_same_rx bs (advanceTx s) s (advanceTx_rxi s) (advanceTx_rxf s), advanceTx_eq_addEmitted,
    advanceTx_eq_addEmitted, pushAllRx_frame bs s]
  rfl

theorem pushAllRx_setResult (bs : List Byte) (r : Result) (s : State) :
    pushAllRx bs (setResult r s) = setResult r (pushAllRx bs s) := by
  rw [pushAllRx_of_same_rx bs (setResult r s) s rfl rfl, pushAllRx_frame bs s]
  rfl

theorem remainingTxBytes_pushAllRx (bs : List Byte) (s : State) :
    remainingTxBytes (pushAllRx bs s) = remainingTxBytes s := by
  rw [remainingTxBytes, pushAllRx_txf, pushAllRx_txi, remainingTxBytes]

/-- `TXPOP` repeated until `None`, with `arrived` received meanwhile, leaves this state (41_serializer.md R115). -/
def afterPops (arrived : List Byte) (s : State) : State :=
  setResult (.popped none) (finishTx (pushAllRx arrived s))

theorem afterPops_eq (arrived : List Byte) (s : State) :
    afterPops arrived s = { s with
      rxf := (pushAllRx arrived s).rxf
      rxi := (pushAllRx arrived s).rxi
      txi := 8
      emitted := s.emitted ++ remainingTxBytes s
      result := .popped none } := by
  rw [afterPops, finishTx, remainingTxBytes_pushAllRx, pushAllRx_frame]
  rfl

/-- What is received before a pop and what is received after it add up. -/
theorem afterPops_of_popped (bs arrived : List Byte) (r : Result) (s : State) :
    afterPops arrived (setResult r (advanceTx (pushAllRx bs s))) = afterPops (bs ++ arrived) s := by
  rw [afterPops, pushAllRx_setResult, pushAllRx_advanceTx, afterPops, pushAllRx_append]
  exact (congrArg (setResult (.popped none)) (finishTx_advanceTx (pushAllRx arrived (pushAllRx bs s))) :)

section
variable {pushes : Nat → List Byte} {k : Nat} {s u : State} (hu : pushAllRx (pushes k) s = u)
include hu

/-- A pop that returns `None` ends the repetition. -/
theorem popUntilNone_of_none (h : nextTxByte u = none) :
    popUntilNone pushes (k + 1) s = some ([], setResult (.popped none) (advanceTx u)) := by
  simp [popUntilNone, exec_txpop_eq, hu, h]

/-- A pop that returns a byte puts it before those popped after it. -/
theorem popUntilNone_of_some {b : Byte} (h : nextTxByte u = some b) :
    popUntilNone pushes (k + 1) s =
      (popUntilNone pushes k (setResult (.popped (some b)) (advanceTx u))).map fun r => (b :: r.1, r.2) := by
  simp [popUntilNone, exec_txpop_eq, hu, h]
end

/-- With more pops allowed than bytes are left, `TXPOP` repeated until `None` gives all that `SER` would, whatever is
received meanwhile (41_serializer.md R115). -/
theorem popUntilNone_eq (pushes : Nat → List Byte) (n : Nat) (s : State) (hn : 8 < n + s.txi.val) :
    ∃ arrived : List Byte, ((∀ k, pushes k = []) → arrived = []) ∧
      popUntilNone pushes n s = some (remainingTxBytes s, afterPops arrived s) := by
  induction n generalizing s with
  | zero => omega
  | succ n ih =>
    obtain ⟨u, hu⟩ : ∃ u, pushAllRx (pushes n) s = u := ⟨_, rfl⟩
    have htxi : u.txi.val = s.txi.val := by rw [← hu, pushAllRx_txi]
    have hbytes : remainingTxBytes s = (nextTxByte u).toList ++ remainingTxBytes (advanceTx u) := by
      rw [← remainingTxBytes_eq_append, ← hu, remainingTxBytes_pushAllRx]
    rcases Nat.lt_or_ge u.txi.val 8 with hlt | hge
    · have hsome := nextTxByte_of_lt u hlt
      obtain ⟨arrived, hnil, hpops⟩ := ih (setResult (.popped (some u.txf[u.txi.val])) (advanceTx u)) (by
        rw [setResult_txi, advanceTx_txi, nextIndex_val]
        omega)
      refine ⟨pushes n ++ arrived, fun h => by rw [h n, hnil h, List.nil_append], ?_⟩
      rw [popUntilNone_of_some hu hsome, hpops, ← afterPops_of_popped, hu, hbytes, hsome]
      rfl
    · have h8 : u.txi.val = 8 := by omega
      have hnone := nextTxByte_of_eq u h8
      refine ⟨pushes n, fun h => h n, ?_⟩
      rw [popUntilNone_of_none hu hnone, hbytes, hnone, advanceTx_of_eq u h8, remainingTxBytes_of_eq u h8, afterPops,
        hu, finishTx_of_eq u h8]
      rfl

/-! ### The two sides together -/

/-- `RXPUSH` receives one byte (42_deserializer.md R133). -/
theorem exec_rxpush_eq (b : Byte) (s : State) :
    exec (.rxpush b) s = .next (setResult .nothing (pushAllRx [b] s)) := rfl

/-- `s` with what a transmit-side operation writes taken from `a`. -/
def withTxOf (a s : State) : State :=
  { s with txf := a.txf, txi := a.txi, acc := a.acc, emitted := a.emitted, result := a.result }

/-- `s` with what a receive-side operation writes taken from `c`. -/
def withRxOf (c s : State) : State := { s with rxf := c.rxf, rxi := c.rxi, result := c.result }

/-- A transmit-side operation writes the same to the transmit side whatever the receive side holds, and nothing else
(41_serializer.md R117). -/
theorem exec_of_isTxOperation {i : Instr} (s : State) (h : isTxOperation i = true) :
    ∃ a, ∀ r, exec i (withRxOf r s) = .next (withTxOf a (withRxOf r s)) := by
  cases i with
  | csum op p0 p1 p2 p3 =>
    exact ⟨setResult (.byte (checksum op p0 p1 p2 p3)) (runChecksum op p0 p1 p2 p3 s), fun _ => rfl⟩
  | build op p0 p1 p2 p3 => exact ⟨setResult .nothing (buildFrame op p0 p1 p2 p3 s), fun _ => rfl⟩
  | txpop =>
    refine ⟨setResult (.popped (nextTxByte s)) (advanceTx s), fun r => ?_⟩
    rw [exec_txpop_eq, advanceTx_eq_addEmitted, advanceTx_eq_addEmitted]
    rfl
  | ser => exact ⟨setResult (.bytes (remainingTxBytes s)) (finishTx s), fun _ => rfl⟩
  | cmdOpen | cmdClose | cmdLed | cmdIsPressed | cmdEnroll | cmdDeleteOne | cmdDeleteAll | cmdUserCount | cmdIdentify
  | cmdLastId | cmdCancelEnroll | request | response | rxclr | rxpush | parse | rdstat | reset => cases h

/-- A receive-side operation writes the same to the receive side whatever the transmit side holds, and nothing else
(41_serializer.md R117). -/
theorem exec_of_isRxOperation {j : Instr} (s : State) (h : isRxOperation j = true) :
    ∃ c, ∀ a, exec j (withTxOf a s) = .next (withRxOf c (withTxOf a s)) := by
  cases j with
  | rxclr => exact ⟨setResult .nothing (clearRx s), fun _ => rfl⟩
  | rxpush b =>
    refine ⟨setResult .nothing (pushRx b s), fun a => ?_⟩
    rw [exec_rxpush_eq, pushAllRx_of_same_rx [b] (withTxOf a s) s rfl rfl]
    rfl
  | parse =>
    exact ⟨setResult (if s.rxi.val = 8 then .frame s.rxf else .raised .shortFrame) s,
      fun a => exec_parse_eq (withTxOf a s)⟩
  | rdstat =>
    exact ⟨setResult (if s.rxi.val = 8 then .byte s.rxf[2] else .raised .shortFrame) s,
      fun a => exec_rdstat_eq (withTxOf a s)⟩
  | cmdOpen | cmdClose | cmdLed | cmdIsPressed | cmdEnroll | cmdDeleteOne | cmdDeleteAll | cmdUserCount | cmdIdentify
  | cmdLastId | cmdCancelEnroll | request | response | csum | build | txpop | ser | reset => cases h

/-- The transport issues only received bytes and response frames (30_encoding.md R74; assumption log 10). -/
theorem issuedByTransport_cases {i : Instr} (h : Agent.transport ∈ issuers i) :
    (∃ b, i = .rxpush b) ∨ ∃ b0 b1 b2 b3 b4 b5 b6 b7, i = .response b0 b1 b2 b3 b4 b5 b6 b7 := by
  cases i with
  | rxpush b => exact .inl ⟨b, rfl⟩
  | response => exact .inr ⟨_, _, _, _, _, _, _, _, rfl⟩
  | cmdOpen | cmdClose | cmdLed | cmdIsPressed | cmdEnroll | cmdDeleteOne | cmdDeleteAll | cmdUserCount | cmdIdentify
  | cmdLastId | cmdCancelEnroll | request | csum | build | txpop | ser | rxclr | parse | rdstat | reset =>
    exact absurd h (by simp [issuers])

end Sys2Proof.Machine

open Sys2Proof Sys2Proof.Machine

/-- Settles O7: `BUILD` leaves `BuildRequest` and `Sum16`, whose sum is the integer sum. -/
theorem buildWritesRequestFrame : Obligations.BuildWritesRequestFrame := by
  unfold Obligations.BuildWritesRequestFrame
  intro op p0 p1 p2 p3 s
  refine ⟨_, exec_build_eq op p0 p1 p2 p3 s, ?_, rfl, rfl, rfl⟩
  rw [buildRequest_eq, sum16_eq_ofNat]

/-- Settles O8: below 8 there is a next byte and the index advances; at 8 there is neither. -/
theorem txpopEmitsNextByte : Obligations.TxpopEmitsNextByte := by
  unfold Obligations.TxpopEmitsNextByte
  refine ⟨fun s h => ⟨_, exec_txpop_eq s, ?_⟩, fun s h => ?_⟩
  · rw [advanceTx_of_lt s h, nextTxByte_of_lt s h]
    refine ⟨rfl, rfl, ?_⟩
    rw [← Bool.not_eq_true, txv_iff]
    change ¬s.txi.val + 1 < 8 ↔ s.txi.val = 7
    omega
  · rw [exec_txpop_eq, advanceTx_of_eq s h, nextTxByte_of_eq s h]
    rfl

/-- Settles O9: `SER` returns `TXF` from `TXI` on, and `BUILD` leaves `TXI = 0`. -/
theorem serEmitsRemainingBytes : Obligations.SerEmitsRemainingBytes := by
  unfold Obligations.SerEmitsRemainingBytes
  refine ⟨fun s => ⟨remainingTxBytes s, exec_ser_eq s, ?_, fun k h => ?_⟩, fun op p0 p1 p2 p3 s t hbuild => ?_⟩
  · simp [remainingTxBytes]
  · simp [remainingTxBytes, h]
  · rw [exec_build_eq] at hbuild
    cases hbuild
    exact ⟨_, exec_ser_eq _, rfl, rfl⟩

/-- Settles O10: each pop takes the first of the bytes left, and bytes received are written elsewhere. -/
theorem serIsTxpopRepeated : Obligations.SerIsTxpopRepeated := by
  unfold Obligations.SerIsTxpopRepeated
  intro s
  refine ⟨remainingTxBytes s, exec_ser_eq s, ?_, fun pushes => ?_⟩
  · obtain ⟨arrived, hnil, hpops⟩ := popUntilNone_eq (fun _ => []) 9 s (by omega)
    rw [hpops, hnil fun _ => rfl]
    rfl
  · obtain ⟨arrived, -, hpops⟩ := popUntilNone_eq pushes 9 s (by omega)
    rw [afterPops_eq] at hpops
    exact ⟨_, hpops, rfl, rfl, rfl, rfl⟩

/-- Settles O22: each side's operation writes its own side, from its own side. -/
theorem transmitAndReceiveSidesCommute : Obligations.TransmitAndReceiveSidesCommute := by
  unfold Obligations.TransmitAndReceiveSidesCommute
  intro i j s hi hj
  obtain ⟨a, ha⟩ := exec_of_isTxOperation s hi
  obtain ⟨c, hc⟩ := exec_of_isRxOperation s hj
  exact ⟨withTxOf a s, withRxOf c (withTxOf a s), withRxOf c s, withTxOf a (withRxOf c s), ha s, hc a, hc s, ha c,
    rfl, rfl, rfl, rfl, rfl, rfl, rfl, rfl⟩

/-- Settles O23: the transport issues `RXPUSH`, which writes the receive side, and response frames, which only give a
result. -/
theorem transportOperationsLeaveTransmitSideAlone : Obligations.TransportOperationsLeaveTransmitSideAlone := by
  unfold Obligations.TransportOperationsLeaveTransmitSideAlone
  intro i s t hi h
  obtain ⟨b, rfl⟩ | ⟨b0, b1, b2, b3, b4, b5, b6, b7, rfl⟩ := issuedByTransport_cases hi
  · obtain ⟨c, hc⟩ := exec_of_isRxOperation (j := .rxpush b) s rfl
    cases (hc s).symm.trans h
    exact ⟨rfl, rfl, rfl, rfl, rfl, rfl⟩
  · cases h
    exact ⟨rfl, rfl, rfl, rfl, rfl, rfl⟩

/-- Settles O27: `REQUEST` answers `BuildRequest`, which `BUILD` leaves in `TXF`. -/
theorem requestAnswersTheBuiltFrame : Obligations.RequestAnswersTheBuiltFrame := by
  unfold Obligations.RequestAnswersTheBuiltFrame
  intro op p0 p1 p2 p3 s
  refine ⟨_, ?_, exec_build_eq op p0 p1 p2 p3 s, rfl⟩
  rw [← buildRequest_eq]
  rfl
end

section
/-! PROOF. 41_serializer.md R116 and R118, 70_reset_and_hazards.md R205: what an instruction does to the transmit side
and to what has been emitted, and the whole frames that a run without hazards emits. -/

namespace Sys2Proof.Machine

/-! ### What the shared operations emit -/

@[simp] theorem advanceTx_emitted (s : State) : (advanceTx s).emitted = s.emitted ++ (nextTxByte s).toList := by
  rw [advanceTx_eq_addEmitted]
  rfl

@[simp] theorem pushAllRx_emitted (bs : List Byte) (s : State) : (pushAllRx bs s).emitted = s.emitted := by
  rw [pushAllRx_frame]

@[simp] theorem transportWrite_emitted (bytes : List Byte) (s : State) :
    (transportWrite bytes s).emitted = s.emitted := by
  rw [transportWrite_eq]

@[simp] theorem transportRead_emitted (d : Timeout) (s : State) : (transportRead d s).emitted = s.emitted := by
  rw [transportRead_eq]

@[simp] theorem noteBlocked_emitted (who : Issuer) (s : State) : (noteBlocked who s).emitted = s.emitted := by
  rw [noteBlocked_eq]

/-- A command without a response emits its frame whole (43_commands.md R151). -/
theorem sendOnly_tx (op a : Byte) (s : State) :
    (sendOnly op a s).txi = 8 ∧ (sendOnly op a s).emitted = s.emitted ++ serialize (buildRequest op a 0 0 0) := by
  rw [sendOnly, sendRequest_eq, serialize_eq_toList]
  exact ⟨rfl, rfl⟩

/-- A response-bearing command emits its frame whole, and its read emits nothing (43_commands.md R152). -/
theorem sendRecv_tx (op a : Byte) (d : Timeout) (s : State) :
    (sendRecv op a d s).txi = 8 ∧
      (sendRecv op a d s).emitted = s.emitted ++ serialize (buildRequest op a 0 0 0) := by
  rw [serialize_eq_toList]
  by_cases hsent : (writeAnswer s).outcome = .sent
  · rw [sendRecv_sent_eq op a d s hsent]
    exact ⟨rfl, rfl⟩
  · rw [sendRecv_of_not_sent op a d s hsent, sendRequest_eq]
    exact ⟨rfl, rfl⟩

/-- `TXPOP` emits the bytes between the index it finds and the index it leaves. -/
theorem nextTxByte_toList (s : State) :
    (nextTxByte s).toList = ((serialize s.txf).take (nextIndex s.txi).val).drop s.txi.val := by
  rw [nextTxByte_eq_head?, remainingTxBytes, nextIndex_val, List.drop_take]
  rcases Nat.lt_or_ge s.txi.val 8 with hlt | hge
  · rw [show min 8 (s.txi.val + 1) - s.txi.val = 1 by omega, List.take_one]
  · rw [show min 8 (s.txi.val + 1) - s.txi.val = 0 by omega, List.take_zero, List.drop_of_length_le (by simp; omega)]
    rfl

/-! ### The five things an instruction can do to the transmit side -/

/-- What an instruction does to `TXF`, `TXI` and the emitted bytes (41_serializer.md section 3, 43_commands.md R151,
R152, 70_reset_and_hazards.md R200). -/
inductive TxEffect : Instr → State → State → Prop where
  /-- A command builds its frame and emits it whole. -/
  | command {i : Instr} {s t : State} (hcommand : (commandOf i).isSome = true) (hbuilt : frameBuiltBy i = some t.txf)
      (htxi : t.txi.val = 8) (hemitted : t.emitted = s.emitted ++ serialize t.txf) : TxEffect i s t
  /-- `BUILD` puts its frame in `TXF` and emits nothing. -/
  | build {op p0 p1 p2 p3 : Byte} {s t : State} (htxf : t.txf = buildRequest op p0 p1 p2 p3) (htxi : t.txi.val = 0)
      (hemitted : t.emitted = s.emitted) : TxEffect (.build op p0 p1 p2 p3) s t
  /-- `RESET` leaves nothing to emit. -/
  | reset {s t : State} (htxi : t.txi.val = 8) (hemitted : t.emitted = s.emitted) : TxEffect .reset s t
  /-- `TXPOP` and `SER` emit bytes of `TXF` from `TXI` on, at least one if any is left. -/
  | emit {i : Instr} {s t : State} (hi : i = .txpop ∨ i = .ser) (htxf : t.txf = s.txf)
      (hle : s.txi.val ≤ t.txi.val) (hlt : s.txi.val < 8 → s.txi.val < t.txi.val)
      (hemitted : t.emitted = s.emitted ++ ((serialize s.txf).take t.txi.val).drop s.txi.val) : TxEffect i s t
  /-- Every other instruction leaves the three alone. -/
  | untouched {i : Instr} {s t : State} (hrestarts : restartsTx i = false) (hpop : i ≠ .txpop) (hser : i ≠ .ser)
      (htxf : t.txf = s.txf) (htxi : t.txi = s.txi) (hemitted : t.emitted = s.emitted) : TxEffect i s t

/-- Every instruction has one of the five effects. -/
theorem exec_txEffect {i : Instr} {s t : State} (h : exec i s = .next t) : TxEffect i s t := by
  cases i with
  | cmdOpen | cmdClose | cmdLed | cmdEnroll | cmdDeleteOne | cmdDeleteAll | cmdCancelEnroll =>
    cases h
    obtain ⟨htxi, hemitted⟩ := sendOnly_tx _ _ s
    exact .command rfl (congrArg some (sendOnly_txf _ _ s).symm) (congrArg Fin.val htxi)
      (by rw [hemitted, sendOnly_txf])
  | cmdIsPressed | cmdUserCount | cmdIdentify | cmdLastId =>
    cases h
    obtain ⟨htxi, hemitted⟩ := sendRecv_tx _ _ _ s
    exact .command rfl (congrArg some (sendRecv_txf _ _ _ s).symm) (congrArg Fin.val htxi)
      (by rw [hemitted, sendRecv_txf])
  | build =>
    cases h
    exact .build rfl rfl rfl
  | reset =>
    cases h
    exact .reset rfl rfl
  | txpop =>
    cases h
    refine .emit (.inl rfl) (advanceTx_txf s) ?_ (fun hlt => ?_) ?_
    · rw [setResult_txi, advanceTx_txi]
      exact le_nextIndex s.txi
    · rw [setResult_txi, advanceTx_txi, nextIndex_val]
      omega
    · rw [setResult_emitted, setResult_txi, advanceTx_txi, advanceTx_emitted, nextTxByte_toList]
  | ser =>
    cases h
    have hall : (serialize s.txf).take 8 = serialize s.txf := List.take_of_length_le (by simp)
    refine .emit (.inr rfl) rfl (Nat.le_of_lt_succ s.txi.isLt) id ?_
    exact congrArg (fun bs => s.emitted ++ bs.drop s.txi.val) hall.symm
  | rxpush b =>
    cases h
    exact .untouched rfl nofun nofun (pushAllRx_txf [b] s) (pushAllRx_txi [b] s) (pushAllRx_emitted [b] s)
  | parse =>
    rw [exec_parse_eq] at h
    cases h
    exact .untouched rfl nofun nofun rfl rfl rfl
  | rdstat =>
    rw [exec_rdstat_eq] at h
    cases h
    exact .untouched rfl nofun nofun rfl rfl rfl
  | request | response | csum | rxclr =>
    cases h
    exact .untouched rfl nofun nofun rfl rfl rfl

/-! ### The frame in `TXF` -/

/-- The frame with bytes left to emit, if there is one. -/
def unfinishedFrame (s : State) : List Frame := if s.txi.val < 8 then [s.txf] else []

/-- That frame, if a byte of it has been emitted or `is` goes on to emit one (41_serializer.md R118). -/
def startedUnfinished (s : State) (is : List Instr) : List Frame :=
  if 0 < s.txi.val ∨ isStarted is = true then unfinishedFrame s else []

theorem unfinishedFrame_of_lt {s : State} (h : s.txi.val < 8) : unfinishedFrame s = [s.txf] := if_pos h

theorem unfinishedFrame_of_eq {s : State} (h : s.txi.val = 8) : unfinishedFrame s = [] := if_neg (by omega)

theorem unfinishedFrame_congr {s t : State} (htxf : t.txf = s.txf) (htxi : t.txi = s.txi) :
    unfinishedFrame t = unfinishedFrame s := by
  rw [unfinishedFrame, htxf, htxi, unfinishedFrame]

theorem startedUnfinished_of_eq {s : State} (h : s.txi.val = 8) (is : List Instr) : startedUnfinished s is = [] := by
  rw [startedUnfinished, unfinishedFrame_of_eq h, ite_self]

theorem startedUnfinished_of_started {s : State} {is : List Instr} (h : isStarted is = true) :
    startedUnfinished s is = unfinishedFrame s := if_pos (.inr h)

theorem startedUnfinished_of_pos {s : State} (h : 0 < s.txi.val) (is : List Instr) :
    startedUnfinished s is = unfinishedFrame s := if_pos (.inl h)

/-- At the end of a run the unfinished frame counts if it is partly sent. -/
theorem startedUnfinished_nil (s : State) :
    startedUnfinished s [] = if 0 < s.txi.val ∧ s.txi.val < 8 then [s.txf] else [] := by
  simp [startedUnfinished, unfinishedFrame, isStarted, ite_and]

theorem partlySent_of_lt {s : State} (h : s.txi.val < 8) : partlySent s = (serialize s.txf).take s.txi.val := if_pos h

theorem partlySent_of_eq {s : State} (h : s.txi.val = 8) : partlySent s = [] := if_neg (by omega)

theorem partlySent_of_zero {s : State} (h : s.txi.val = 0) : partlySent s = [] := by
  rw [partlySent_of_lt (by omega), h, List.take_zero]

theorem partlySent_congr {s t : State} (htxf : t.txf = s.txf) (htxi : t.txi = s.txi) :
    partlySent t = partlySent s := by
  rw [partlySent, htxf, htxi, partlySent]

/-! ### Restarts and starts -/

/-- Only `TXPOP` and `SER` start a frame, and neither restarts the transmit side. -/
theorem isStarted_of_restartsTx {i : Instr} (h : restartsTx i = true) (rest : List Instr) :
    isStarted (i :: rest) = false := by
  have hpop : i ≠ .txpop := by
    rintro rfl
    cases h
  have hser : i ≠ .ser := by
    rintro rfl
    cases h
  simp [isStarted, h, hpop, hser]

theorem isStarted_of_emit {i : Instr} (h : i = .txpop ∨ i = .ser) (rest : List Instr) :
    isStarted (i :: rest) = true := by
  obtain rfl | rfl := h
  · rfl
  · rfl

theorem frameBuiltBy_of_emit {i : Instr} (h : i = .txpop ∨ i = .ser) : frameBuiltBy i = none := by
  obtain rfl | rfl := h
  · rfl
  · rfl

theorem isStarted_of_untouched {i : Instr} (hrestarts : restartsTx i = false) (hpop : i ≠ .txpop) (hser : i ≠ .ser)
    (rest : List Instr) : isStarted (i :: rest) = isStarted rest := by
  simp [isStarted, hrestarts, hpop, hser]

theorem frameBuiltBy_eq_none {i : Instr} (h : restartsTx i = false) : frameBuiltBy i = none :=
  Option.eq_none_iff_forall_ne_some.2 fun _ hbuilt => by
    rw [restartsTx_of_frameBuiltBy hbuilt] at h
    cases h

theorem startedFrames_of_none {i : Instr} (h : frameBuiltBy i = none) (rest : List Instr) :
    startedFrames (i :: rest) = startedFrames rest := by
  simp only [startedFrames, h]

/-- A command's frame is started by the command itself (43_commands.md R151). -/
theorem startedFrames_of_command {i : Instr} {f : Frame} (hcommand : (commandOf i).isSome = true)
    (hbuilt : frameBuiltBy i = some f) (rest : List Instr) : startedFrames (i :: rest) = f :: startedFrames rest := by
  simp [startedFrames, hbuilt, hcommand]

/-- A `BUILD`'s frame is started by what follows (41_serializer.md R118). -/
theorem startedFrames_of_build (op p0 p1 p2 p3 : Byte) (rest : List Instr) :
    startedFrames (.build op p0 p1 p2 p3 :: rest) =
      (if isStarted rest = true then [buildRequest op p0 p1 p2 p3] else []) ++ startedFrames rest := by
  by_cases h : isStarted rest = true
  · simp [startedFrames, frameBuiltBy, h]
  · simp [startedFrames, frameBuiltBy, commandOf, h]

/-- The frames started are some of those built, in their order (41_serializer.md R118). -/
theorem startedFrames_sublist (is : List Instr) : (startedFrames is).Sublist (is.filterMap frameBuiltBy) := by
  induction is with
  | nil => exact .slnil
  | cons i rest ih =>
    cases hbuilt : frameBuiltBy i with
    | none =>
      rw [startedFrames_of_none hbuilt, List.filterMap_cons_none hbuilt]
      exact ih
    | some f =>
      rw [List.filterMap_cons_some hbuilt]
      simp only [startedFrames, hbuilt]
      split
      · exact ih.cons_cons f
      · exact ih.cons f

/-- An instruction that restarts the transmit side is no hazard when no frame is partly sent (70_reset_and_hazards.md
R205). -/
theorem txi_of_hazardFree {i : Instr} {s : State} (h : hazardFree i s = true) (hrestarts : restartsTx i = true) :
    s.txi.val = 0 ∨ s.txi.val = 8 := by
  simp only [hazardFree, hrestarts, Bool.true_and, Bool.not_eq_true', Bool.and_eq_false_iff,
    decide_eq_false_iff_not] at h
  omega

/-- A restart that is no hazard cuts nothing off: nothing is partly sent, nothing unfinished is started. -/
theorem nothing_cut_of_hazardFree {i : Instr} {s : State} (h : hazardFree i s = true) (hrestarts : restartsTx i = true)
    (rest : List Instr) : partlySent s = [] ∧ startedUnfinished s (i :: rest) = [] := by
  obtain h0 | h8 := txi_of_hazardFree h hrestarts
  · refine ⟨partlySent_of_zero h0, if_neg ?_⟩
    simp [h0, isStarted_of_restartsTx hrestarts rest]
  · exact ⟨partlySent_of_eq h8, startedUnfinished_of_eq h8 _⟩

/-! ### Whole frames on the wire -/

theorem take_append_drop_take {α : Type} (l : List α) {m n : Nat} (h : m ≤ n) :
    l.take m ++ (l.take n).drop m = l.take n := by
  have hsplit := List.take_append_drop m (l.take n)
  rwa [List.take_take, Nat.min_eq_left h] at hsplit

/-- Emitting from `TXF` sends the next part of the unfinished frame, and finishes it when `TXI` becomes 8. -/
theorem finishes_of_emit {s t : State} (htxf : t.txf = s.txf) (hle : s.txi.val ≤ t.txi.val)
    (hlt : s.txi.val < 8 → s.txi.val < t.txi.val)
    (hemitted : t.emitted = s.emitted ++ ((serialize s.txf).take t.txi.val).drop s.txi.val) {base : List Byte}
    (hbase : s.emitted = base ++ partlySent s) (rest : List Instr) :
    ∃ done : List Frame,
      t.emitted = base ++ done.flatMap serialize ++ partlySent t ∧
        done ++ startedUnfinished t rest = unfinishedFrame s := by
  rcases Nat.lt_or_ge s.txi.val 8 with hs | hs
  · have hpos : 0 < t.txi.val := Nat.zero_lt_of_lt (hlt hs)
    have hsofar : t.emitted = base ++ (serialize t.txf).take t.txi.val := by
      rw [hemitted, hbase, partlySent_of_lt hs, List.append_assoc, take_append_drop_take _ hle, htxf]
    rw [unfinishedFrame_of_lt hs, ← htxf, startedUnfinished_of_pos hpos]
    rcases Nat.lt_or_ge t.txi.val 8 with ht | ht
    · refine ⟨[], ?_, by rw [unfinishedFrame_of_lt ht, List.nil_append]⟩
      rw [hsofar, partlySent_of_lt ht, List.flatMap_nil, List.append_nil]
    · have h8 : t.txi.val = 8 := by omega
      refine ⟨[t.txf], ?_, by rw [unfinishedFrame_of_eq h8, List.append_nil]⟩
      rw [hsofar, partlySent_of_eq h8, List.take_of_length_le (by simp [h8]), List.flatMap_singleton, List.append_nil]
  · have hs8 : s.txi.val = 8 := by omega
    have ht8 : t.txi.val = 8 := by omega
    refine ⟨[], ?_, by rw [startedUnfinished_of_eq ht8, unfinishedFrame_of_eq hs8, List.nil_append]⟩
    rw [hemitted, hbase, partlySent_of_eq hs8, partlySent_of_eq ht8, hs8, ht8]
    simp

/-- An instruction that is no hazard finishes some frames: the bytes emitted go on with them, then with what has been sent
of the frame now in `TXF`; and they are the first of the frames started, that in `TXF` counted (41_serializer.md
R118). -/
theorem TxEffect.finishes {i : Instr} {s t : State} (h : TxEffect i s t) (hsafe : hazardFree i s = true)
    {base : List Byte} (hbase : s.emitted = base ++ partlySent s) (rest : List Instr) :
    ∃ done : List Frame,
      t.emitted = base ++ done.flatMap serialize ++ partlySent t ∧
        done ++ (startedUnfinished t rest ++ startedFrames rest) =
          startedUnfinished s (i :: rest) ++ startedFrames (i :: rest) := by
  cases h with
  | command hcommand hbuilt htxi hemitted =>
    obtain ⟨hsent, hopen⟩ := nothing_cut_of_hazardFree hsafe (restartsTx_of_frameBuiltBy hbuilt) rest
    refine ⟨[t.txf], ?_, ?_⟩
    · rw [hemitted, hbase, hsent, partlySent_of_eq htxi]
      simp
    · rw [hopen, startedUnfinished_of_eq htxi, startedFrames_of_command hcommand hbuilt]
      rfl
  | build htxf htxi hemitted =>
    obtain ⟨hsent, hopen⟩ := nothing_cut_of_hazardFree hsafe rfl rest
    refine ⟨[], ?_, ?_⟩
    · rw [hemitted, hbase, hsent, partlySent_of_zero htxi]
      simp
    · rw [hopen, startedFrames_of_build, startedUnfinished, unfinishedFrame_of_lt (by omega), htxf, htxi]
      simp
  | reset htxi hemitted =>
    obtain ⟨hsent, hopen⟩ := nothing_cut_of_hazardFree hsafe rfl rest
    refine ⟨[], ?_, ?_⟩
    · rw [hemitted, hbase, hsent, partlySent_of_eq htxi]
      simp
    · rw [hopen, startedUnfinished_of_eq htxi, startedFrames_of_none rfl]
      rfl
  | emit hi htxf hle hlt hemitted =>
    obtain ⟨done, hbytes, hdone⟩ := finishes_of_emit htxf hle hlt hemitted hbase rest
    refine ⟨done, hbytes, ?_⟩
    rw [startedFrames_of_none (frameBuiltBy_of_emit hi), startedUnfinished_of_started (isStarted_of_emit hi rest),
      ← hdone, List.append_assoc]
  | untouched hrestarts hpop hser htxf htxi hemitted =>
    refine ⟨[], ?_, ?_⟩
    · rw [hemitted, hbase, partlySent_congr htxf htxi]
      simp
    · rw [startedFrames_of_none (frameBuiltBy_eq_none hrestarts), startedUnfinished, startedUnfinished,
        isStarted_of_untouched hrestarts hpop hser, htxi, unfinishedFrame_congr htxf htxi]
      rfl

/-- One instruction more of a run without hazards. -/
theorem runHazardFree_cons {i : Instr} {rest : List Instr} {s t : State} (h : runHazardFree (i :: rest) s = some t) :
    ∃ u, hazardFree i s = true ∧ exec i s = .next u ∧ runHazardFree rest u = some t := by
  unfold runHazardFree at h
  split at h
  · split at h
    · exact ⟨_, ‹_›, ‹_›, h⟩
    · cases h
    · cases h
  · cases h

/-- A run without hazards emits the frames it starts, whole but for the one in `TXF` (41_serializer.md R118). -/
theorem runHazardFree_finishes {is : List Instr} {s t : State} (h : runHazardFree is s = some t) {base : List Byte}
    (hbase : s.emitted = base ++ partlySent s) :
    ∃ done : List Frame,
      t.emitted = base ++ done.flatMap serialize ++ partlySent t ∧
        done ++ startedUnfinished t [] = startedUnfinished s is ++ startedFrames is := by
  induction is generalizing s base with
  | nil =>
    cases h
    exact ⟨[], by simpa using hbase, by simp [startedFrames]⟩
  | cons i rest ih =>
    obtain ⟨u, hsafe, hexec, hrun⟩ := runHazardFree_cons h
    obtain ⟨first, hemitted, hfirst⟩ := (exec_txEffect hexec).finishes hsafe hbase rest
    obtain ⟨others, hemitted', hothers⟩ := ih hrun hemitted
    refine ⟨first ++ others, ?_, ?_⟩
    · rw [hemitted', List.flatMap_append]
      simp only [List.append_assoc]
    · rw [List.append_assoc, hothers, hfirst]

/-- An instruction leaves in `TXF` the unfinished frame it found, or the frame it builds, or nothing unfinished. -/
theorem TxEffect.unfinishedFrame_suffix {i : Instr} {s t : State} (h : TxEffect i s t) :
    unfinishedFrame t <:+ unfinishedFrame s ++ (frameBuiltBy i).toList := by
  cases h with
  | command _ _ htxi _ | reset htxi _ =>
    rw [unfinishedFrame_of_eq htxi]
    exact List.nil_suffix
  | build htxf htxi _ =>
    rw [unfinishedFrame_of_lt (by omega), htxf]
    exact List.suffix_append _ _
  | emit hi htxf hle _ _ =>
    rw [frameBuiltBy_of_emit hi, Option.toList_none, List.append_nil]
    rcases Nat.lt_or_ge t.txi.val 8 with ht | ht
    · rw [unfinishedFrame_of_lt ht, unfinishedFrame_of_lt (by omega), htxf]
    · rw [unfinishedFrame_of_eq (by omega)]
      exact List.nil_suffix
  | untouched hrestarts _ _ htxf htxi _ =>
    rw [frameBuiltBy_eq_none hrestarts, unfinishedFrame_congr htxf htxi, Option.toList_none, List.append_nil]

/-- After a run the unfinished frame, if there is one, is the last one built. -/
theorem runHazardFree_unfinishedFrame_suffix {is : List Instr} {s t : State} (h : runHazardFree is s = some t) :
    unfinishedFrame t <:+ unfinishedFrame s ++ is.filterMap frameBuiltBy := by
  induction is generalizing s with
  | nil =>
    cases h
    rw [List.filterMap_nil, List.append_nil]
  | cons i rest ih =>
    obtain ⟨u, -, hexec, hrun⟩ := runHazardFree_cons h
    obtain ⟨before, hbefore⟩ := (exec_txEffect hexec).unfinishedFrame_suffix
    rw [List.filterMap_eq_flatMap_toList, List.flatMap_cons, ← List.filterMap_eq_flatMap_toList, ← List.append_assoc,
      ← hbefore, List.append_assoc]
    exact (ih hrun).trans (List.suffix_append before _)

/-- From an idle transmit side, the unfinished frame is the last one built (41_serializer.md R118). -/
theorem getLast?_built_of_unfinished {is : List Instr} {s t : State} (h : runHazardFree is s = some t)
    (hs : s.txi.val = 8) (ht : t.txi.val < 8) : (is.filterMap frameBuiltBy).getLast? = some t.txf := by
  have hsuffix := runHazardFree_unfinishedFrame_suffix h
  rw [unfinishedFrame_of_eq hs, unfinishedFrame_of_lt ht, List.nil_append] at hsuffix
  obtain ⟨before, hbefore⟩ := hsuffix
  rw [← hbefore, List.getLast?_concat]

/-- Every frame built in a run is a request frame. -/
theorem isRequest_of_mem_built {is : List Instr} {f : Frame} (h : f ∈ is.filterMap frameBuiltBy) : isRequest f := by
  obtain ⟨i, -, hbuilt⟩ := List.mem_filterMap.1 h
  exact isRequest_of_frameBuiltBy hbuilt

/-! ### The wire invariant -/

/-- A frame that is finished was in `TXF` with bytes left to emit, or has been built: a request frame either way. -/
theorem isRequest_of_mem_startedUnfinished {s : State} (hs : txFrameSound s) {is : List Instr} {f : Frame}
    (h : f ∈ startedUnfinished s is ++ startedFrames is) : isRequest f := by
  obtain hold | hnew := List.mem_append.1 h
  · simp only [startedUnfinished, unfinishedFrame, List.mem_ite_nil_right, List.mem_singleton] at hold
    obtain ⟨-, hlt, rfl⟩ := hold
    exact hs hlt
  · exact isRequest_of_mem_built ((startedFrames_sublist is).subset hnew)

/-- Every instruction that is no hazard keeps the emitted bytes whole frames (41_serializer.md R118;
70_reset_and_hazards.md R205). -/
theorem exec_keeps_wireSound {i : Instr} {s t : State} (hs : wireSound s) (hsafe : hazardFree i s = true)
    (h : exec i s = .next t) : wireSound t := by
  obtain ⟨hsound, frames, hframes, hemitted⟩ := hs
  obtain ⟨done, hemitted', hdone⟩ := (exec_txEffect h).finishes hsafe hemitted []
  refine ⟨exec_keeps_txFrameSound hsound h, frames ++ done, fun f hf => ?_, ?_⟩
  · obtain hold | hnew := List.mem_append.1 hf
    · exact hframes f hold
    · exact isRequest_of_mem_startedUnfinished hsound (hdone ▸ List.mem_append_left _ hnew)
  · rw [hemitted', List.flatMap_append]

/-- The same transmit side and the same emitted bytes stay sound. -/
theorem wireSound.of_same_tx {s t : State} (h : wireSound s) (htxf : t.txf = s.txf) (htxi : t.txi = s.txi)
    (hemitted : t.emitted = s.emitted) : wireSound t := by
  obtain ⟨hsound, frames, hframes, hbytes⟩ := h
  refine ⟨hsound.of_same_tx htxf htxi, frames, hframes, ?_⟩
  rw [hemitted, hbytes, partlySent_congr htxf htxi]

/-- Every event that is no hazard does: the transport calls emit nothing (43_commands.md R150). -/
theorem performEvent_keeps_wireSound {e : Event} {s t : State} (hs : wireSound s)
    (hsafe : ∀ c i, e = .issue c → decode Config.vocab c = .instr i → hazardFree i s = true)
    (h : performEvent e s = .next t) : wireSound t := by
  cases e with
  | issue c =>
    simp only [performEvent] at h
    split at h
    · exact exec_keeps_wireSound hs (hsafe _ _ rfl ‹_›) h
    · cases h
  | twrite bytes =>
    cases h
    exact hs.of_same_tx (transportWrite_txf bytes s) (transportWrite_txi bytes s) (transportWrite_emitted bytes s)
  | tread d =>
    cases (execTRead_eq d s).symm.trans h
    exact hs.of_same_tx (transportRead_txf d s) (transportRead_txi d s) (transportRead_emitted d s)

/-- What a safe step performs, if its issuer is not blocked, is no hazard (70_reset_and_hazards.md R205). -/
theorem hazardFree_of_safeStep {s : State} {who : Issuer} {c : Code} {i : Instr} {rest : List Issued}
    (h : safeStep s = true) (hissued : s.issued = ⟨who, .issue c⟩ :: rest) (hb : who ∉ s.blocked)
    (hc : decode Config.vocab c = .instr i) : hazardFree i s = true := by
  simpa [safeStep, hissued, hb, hc] using h

/-- A safe step keeps the emitted bytes whole frames (41_serializer.md R118). -/
theorem step_keeps_wireSound {s t : State} (hsafe : safeStep s = true) (hs : wireSound s) (h : step s = .next t) :
    wireSound t := by
  obtain ⟨-, rfl⟩ | ⟨⟨who, e⟩, rest, hissued, ⟨-, rfl⟩ | ⟨hb, u, hu, rfl⟩⟩ := step_cases s t h
  · exact hs
  · exact hs
  · have hu' : wireSound u := by
      refine performEvent_keeps_wireSound (s := setIssued rest s) hs ?_ hu
      rintro c i rfl hc
      exact hazardFree_of_safeStep (s := s) hsafe hissued hb hc
    exact hu'.of_same_tx (noteBlocked_txf who u) (noteBlocked_txi who u) (noteBlocked_emitted who u)

end Sys2Proof.Machine

open Sys2Proof Sys2Proof.Machine

/-- Settles O52: an instruction that is no hazard finishes request frames only, and the transport calls emit nothing. -/
theorem safeStepKeepsWireSound : Obligations.SafeStepKeepsWireSound := by
  unfold Obligations.SafeStepKeepsWireSound
  intro s t hsafe hs h
  exact step_keeps_wireSound hsafe hs h

/-- Settles O11: a command leaves `TXI = 8`, and nothing else but `BUILD` lowers it. -/
theorem noResendWithoutBuild : Obligations.NoResendWithoutBuild := by
  unfold Obligations.NoResendWithoutBuild
  intro i s t hs h ht
  cases exec_txEffect h with
  | build htxf htxi _ => exact ⟨_, _, _, _, _, rfl, htxf, htxi⟩
  | command _ _ htxi _ | reset htxi _ => omega
  | emit _ _ hle _ _ => omega
  | untouched _ _ _ _ htxi _ =>
    rw [htxi] at ht
    omega

/-- Settles O13: each instruction of the run finishes the next of the frames started, and the one in `TXF` is the
last. -/
theorem wireCarriesWholeFramesInOrder : Obligations.WireCarriesWholeFramesInOrder := by
  unfold Obligations.WireCarriesWholeFramesInOrder
  intro is s t hs h
  have hbase : s.emitted = s.emitted ++ partlySent s := by rw [partlySent_of_eq hs, List.append_nil]
  obtain ⟨frames, hemitted, hframes⟩ := runHazardFree_finishes h hbase
  rw [startedUnfinished_of_eq hs, List.nil_append] at hframes
  refine ⟨frames, hemitted, ?_, startedFrames_sublist is,
    fun f hf => (isRequest_of_mem_built hf).markersOK_and_checksumOK⟩
  rw [startedUnfinished_nil] at hframes
  split_ifs at hframes ⊢ with hpart
  · exact ⟨hframes, getLast?_built_of_unfinished h hs hpart.2⟩
  · rwa [List.append_nil] at hframes
end

section
/-! PROOF. 42_deserializer.md: what `RXCLR`, `RXPUSH`, `PARSE` and `RDSTAT` leave (R132 to R135), the frame that a run
collects after `RXCLR` (R136, R138), and its consequences (R137, R139). -/

namespace Sys2Proof.Machine

/-! ### Reading the receive register -/

/-- A full register is parsed as it is (42_deserializer.md R134). -/
theorem exec_parse_of_full {s : State} (h : s.rxi.val = 8) : exec .parse s = .next (setResult (.frame s.rxf) s) := by
  rw [exec_parse_eq, if_pos h]

/-- A register that is not full cannot be parsed (42_deserializer.md R134). -/
theorem exec_parse_of_short {s : State} (h : s.rxi.val < 8) :
    exec .parse s = .next (setResult (.raised .shortFrame) s) := by
  rw [exec_parse_eq, if_neg (by omega)]

/-- Of a full register the status is byte 2 (42_deserializer.md R135). -/
theorem exec_rdstat_of_full {s : State} (h : s.rxi.val = 8) :
    exec .rdstat s = .next (setResult (.byte s.rxf[2]) s) := by
  rw [exec_rdstat_eq, if_pos h]

/-- A register that is not full has no status, even when byte 2 has arrived (42_deserializer.md R135). -/
theorem exec_rdstat_of_short {s : State} (h : s.rxi.val < 8) :
    exec .rdstat s = .next (setResult (.raised .shortFrame) s) := by
  rw [exec_rdstat_eq, if_neg (by omega)]

/-- What `RESPONSE` answers (42_deserializer.md R130, R131). -/
theorem exec_response_eq (b0 b1 b2 b3 b4 b5 b6 b7 : Byte) (s : State) :
    exec (.response b0 b1 b2 b3 b4 b5 b6 b7) s =
      .next (setResult (.response #v[b0, b1, b2, b3, b4, b5, b6, b7] b2) s) := rfl

/-! ### Bytes pushed into a cleared register -/

/-- A cleared register that gets eight bytes or more holds the first eight of them (42_deserializer.md R138). -/
theorem pushAllRx_of_cleared (f : Frame) (rest : List Byte) {s : State} (h : s.rxi.val = 0) :
    (pushAllRx (f.toList ++ rest) s).rxi = 8 ∧ (pushAllRx (f.toList ++ rest) s).rxf = f := by
  obtain ⟨hindex, hbytes⟩ := pushAllRx_received (f.toList ++ rest) s
  have hfull : (pushAllRx (f.toList ++ rest) s).rxi.val = 8 := by
    rw [hindex, List.length_append, Vector.length_toList]
    omega
  refine ⟨Fin.ext hfull, Vector.toList_inj.1 ?_⟩
  rw [hfull, h, List.take_zero, List.nil_append, List.take_left' (by simp), List.take_of_length_le (by simp)] at hbytes
  exact hbytes

/-! ### Runs -/

/-- An instruction that completes is followed by the rest of the run. -/
theorem runInstrs_cons_of_next {i : Instr} {s u : State} (h : exec i s = .next u) (rest : List Instr) :
    runInstrs (i :: rest) s = runInstrs rest u := by
  simp only [runInstrs, h]

/-- One instruction more of a run. -/
theorem runInstrs_cons {i : Instr} {rest : List Instr} {s t : State} (h : runInstrs (i :: rest) s = some t) :
    ∃ u, exec i s = .next u ∧ runInstrs rest u = some t := by
  unfold runInstrs at h
  split at h
  · exact ⟨_, ‹_›, h⟩
  · cases h
  · cases h

/-- A run receives what its first instruction receives, then what the rest does. -/
theorem receivedBytes_cons_of_next {i : Instr} {s u : State} (h : exec i s = .next u) (rest : List Instr) :
    receivedBytes (i :: rest) s = receivedBy i s ++ receivedBytes rest u := by
  simp only [receivedBytes, h]

/-- A run that does not clear the receive side leaves there what it held and then all that the run receives
(42_deserializer.md R138). -/
theorem runInstrs_rx_of_keepsReceiving {is : List Instr} {s t : State} (hk : ∀ i ∈ is, keepsReceiving i = true)
    (h : runInstrs is s = some t) :
    t.rxf = (pushAllRx (receivedBytes is s) s).rxf ∧ t.rxi = (pushAllRx (receivedBytes is s) s).rxi := by
  induction is generalizing s with
  | nil =>
    cases h
    exact ⟨rfl, rfl⟩
  | cons i rest ih =>
    obtain ⟨hki, hkrest⟩ := List.forall_mem_cons.1 hk
    obtain ⟨u, hexec, hrun⟩ := runInstrs_cons h
    obtain ⟨hrxf, hrxi⟩ := exec_rx_of_keepsReceiving hexec hki
    obtain ⟨hrxi', hrxf'⟩ := pushAllRx_congr (receivedBytes rest u) _ _ hrxi hrxf
    rw [receivedBytes_cons_of_next hexec, pushAllRx_append, ← hrxf', ← hrxi']
    exact ih hkrest hrun

/-- A run of `RXPUSH` receives its bytes (42_deserializer.md R133). -/
theorem runInstrs_pushes (bs : List Byte) (is : List Instr) (s : State) :
    runInstrs (bs.map .rxpush ++ is) (setResult .nothing s) = runInstrs is (setResult .nothing (pushAllRx bs s)) := by
  induction bs generalizing s with
  | nil => rfl
  | cons b bs ih =>
    rw [List.map_cons, List.cons_append, runInstrs_cons_of_next (exec_rxpush_eq b (setResult .nothing s)),
      pushAllRx_setResult]
    exact ih (pushRx b s)

/-- `s` after `RXCLR` and the eight bytes of a frame. -/
def holding (f : Frame) (s : State) : State := { s with rxf := f, rxi := 8, result := .nothing }

/-- `RXCLR` and the `RXPUSH` of a frame's bytes collect that frame, whatever its bytes are (42_deserializer.md R136). -/
theorem runInstrs_collect (f : Frame) (is : List Instr) (s : State) :
    runInstrs (.rxclr :: f.toList.map .rxpush ++ is) s = runInstrs is (holding f s) := by
  obtain ⟨hrxi, hrxf⟩ := pushAllRx_of_cleared f [] (s := clearRx s) rfl
  have hcollected : pushAllRx f.toList (clearRx s) = { s with rxf := f, rxi := 8 } := by
    rw [List.append_nil] at hrxi hrxf
    rw [pushAllRx_frame, hrxi, hrxf]
    rfl
  rw [List.cons_append, runInstrs_cons_of_next (exec_rxclr_eq s)]
  change runInstrs (f.toList.map .rxpush ++ is) (setResult .nothing (clearRx s)) = _
  rw [runInstrs_pushes, hcollected]
  rfl

/-- The frame collected is the one parsed (42_deserializer.md R134). -/
theorem runInstrs_collect_parse (f : Frame) (s : State) :
    runInstrs (.rxclr :: f.toList.map .rxpush ++ [.parse]) s = some (setResult (.frame f) (holding f s)) := by
  rw [runInstrs_collect, runInstrs_cons_of_next (exec_parse_of_full rfl)]
  rfl

/-- Byte 2 of the frame collected is the status (42_deserializer.md R135). -/
theorem runInstrs_collect_rdstat (f : Frame) (s : State) :
    runInstrs (.rxclr :: f.toList.map .rxpush ++ [.rdstat]) s = some (setResult (.byte f[2]) (holding f s)) := by
  rw [runInstrs_collect, runInstrs_cons_of_next (exec_rdstat_of_full rfl)]
  rfl

/-- `BUILD` then `SER` returns the whole frame built (41_serializer.md R114). -/
theorem runInstrs_build_ser (op p0 p1 p2 p3 : Byte) (s : State) :
    ∃ t, runInstrs [.build op p0 p1 p2 p3, .ser] s = some t ∧
      t.result = .bytes (buildRequest op p0 p1 p2 p3).toList := by
  rw [runInstrs_cons_of_next (exec_build_eq op p0 p1 p2 p3 s), runInstrs_cons_of_next (exec_ser_eq _)]
  exact ⟨_, rfl, rfl⟩

end Sys2Proof.Machine

open Sys2Proof Sys2Proof.Machine

/-- Settles O19: the run leaves on the receive side what its bytes, pushed into the cleared register, leave there. -/
theorem firstEightPushedBytesAreTheFrame : Obligations.FirstEightPushedBytesAreTheFrame := by
  unfold Obligations.FirstEightPushedBytesAreTheFrame
  intro s0 s t is hclear hkeeps hrun
  have hcleared : s.rxi.val = 0 := by
    rw [exec_rxclr_eq] at hclear
    cases hclear
    rfl
  obtain ⟨hrxf, hrxi⟩ := runInstrs_rx_of_keepsReceiving hkeeps hrun
  obtain ⟨hindex, hbytes⟩ := pushAllRx_received (receivedBytes is s) s
  rw [← hrxi, hcleared] at hindex hbytes
  rw [← hrxf] at hbytes
  refine ⟨by rw [hindex, Nat.zero_add], by rw [serialize_eq_toList, hbytes, List.take_zero, List.nil_append], ?_⟩
  intro b0 b1 b2 b3 b4 b5 b6 b7 rest hreceived
  obtain ⟨hfull, hframe⟩ := pushAllRx_of_cleared #v[b0, b1, b2, b3, b4, b5, b6, b7] rest hcleared
  rw [hreceived] at hrxf hrxi
  have hfull' : t.rxi.val = 8 := congrArg Fin.val (hrxi.trans hfull)
  have hframe' : t.rxf = #v[b0, b1, b2, b3, b4, b5, b6, b7] := hrxf.trans hframe
  have hparse := exec_parse_of_full hfull'
  have hrdstat := exec_rdstat_of_full hfull'
  rw [hframe'] at hparse hrdstat
  exact ⟨hfull', hframe', hparse, hrdstat⟩

/-- Settles O20: the eight bytes that arrive after `RXCLR` are collected as a frame, from wherever they are. -/
theorem offsetStreamIsMisreadSilently : Obligations.OffsetStreamIsMisreadSilently := by
  unfold Obligations.OffsetStreamIsMisreadSilently
  intro b0 b1 b2 b3 b4 b5 b6 b7 x s
  exact ⟨⟨_, runInstrs_collect_rdstat #v[b1, b2, b3, b4, b5, b6, b7, x] s, rfl⟩,
    ⟨_, runInstrs_collect_rdstat #v[x, b0, b1, b2, b3, b4, b5, b6] s, rfl, rfl⟩⟩

/-- Settles O21: both functions keep every byte in place, and so do `SER` and the receive side. -/
theorem serializedFrameRoundTrips : Obligations.SerializedFrameRoundTrips := by
  unfold Obligations.SerializedFrameRoundTrips
  refine ⟨fun f bytes h => ?_, fun bytes => ?_, fun op p0 p1 p2 p3 s => ?_⟩
  · rw [serialize_eq_toList] at h
    rw [parseResponse_eq_self, Vector.toList_inj.1 h]
  · rw [parseResponse_eq_self, serialize_eq_toList]
  · obtain ⟨t, hsent, hbytes⟩ := runInstrs_build_ser op p0 p1 p2 p3 s
    have hparsed := runInstrs_collect_parse (buildRequest op p0 p1 p2 p3) t
    exact ⟨t, _, _, hsent, hbytes, hparsed, rfl, rfl, rfl, rfl, rfl, rfl⟩

/-- Settles O14: `RXCLR` leaves `RXI = 0`, where nothing can be read. -/
theorem rxclrRestartsCollection : Obligations.RxclrRestartsCollection := by
  unfold Obligations.RxclrRestartsCollection
  intro s
  have hshort : (0 : Index).val < 8 := by decide
  exact ⟨_, exec_rxclr_eq s, rfl, rfl, exec_parse_of_short hshort, exec_rdstat_of_short hshort⟩

/-- Settles O15: below 8 there is room for the byte at `RXI`; at 8 there is none. -/
theorem rxpushStoresOrDiscards : Obligations.RxpushStoresOrDiscards := by
  unfold Obligations.RxpushStoresOrDiscards
  refine fun b s => ⟨fun h => ⟨_, exec_rxpush_eq b s, ?_⟩, fun h => ?_⟩
  · rw [pushAllRx_cons, pushAllRx_nil, pushRx_of_lt b s h]
    refine ⟨rfl, fun k hk => ?_, rfl, ?_⟩
    · simp only [setResult_rxf, Vector.getElem_set, eq_comm]
    · rw [rxc_iff]
      change s.rxi.val + 1 = 8 ↔ s.rxi.val = 7
      omega
  · rw [exec_rxpush_eq, pushAllRx_of_full [b] s h]
    rfl

/-- Settles O16: `PARSE` answers by `RXI` alone whether there is a frame. -/
theorem parseReturnsReceivedFrame : Obligations.ParseReturnsReceivedFrame := by
  unfold Obligations.ParseReturnsReceivedFrame
  exact fun s => ⟨exec_parse_of_full, exec_parse_of_short⟩

/-- Settles O17: `StatusOf` of the frame in `RXF` is its byte 2. -/
theorem rdstatReturnsStatusByte : Obligations.RdstatReturnsStatusByte := by
  unfold Obligations.RdstatReturnsStatusByte
  exact fun s => ⟨fun h => ⟨exec_rdstat_of_full h, s.rxf, exec_parse_of_full h, rfl⟩, exec_rdstat_of_short⟩

/-- Settles O28: the receive side collects the eight bytes that `RESPONSE` answers with. -/
theorem responseAnswersTheParsedFrame : Obligations.ResponseAnswersTheParsedFrame := by
  unfold Obligations.ResponseAnswersTheParsedFrame
  intro b0 b1 b2 b3 b4 b5 b6 b7 s
  exact ⟨_, _, exec_response_eq b0 b1 b2 b3 b4 b5 b6 b7 s,
    runInstrs_collect_parse #v[b0, b1, b2, b3, b4, b5, b6, b7] s, rfl, exec_rdstat_of_full rfl, rfl⟩
end

section
/-! PROOF. 43_commands.md: what the two transport primitives leave when the host calls them itself (R150), and what the
eleven commands leave, call and return (R151 to R168). -/

namespace Sys2Proof.Machine

open Sys2Proof.Claims

/-! ### The command frame and its sum -/

/-- The request frame of a command, as bytes (30_encoding.md R66, R67). -/
theorem buildRequest_toList_eq_commandFrame (op a : Byte) :
    (buildRequest op a 0 0 0).toList = commandFrame op a := by
  have hsum : checksum op a 0 0 0 = op + a := by
    rw [checksum, sum16, lowByte_accumulate]
    simp
  rw [buildRequest_toList, hsum]
  rfl

/-- The sum of a command's opcode and operand (40_checksum.md R95). -/
theorem sum16_command_toNat (op a : Byte) : (sum16 op a 0 0 0).toNat = op.toNat + a.toNat := sum16_toNat op a 0 0 0

/-- With operand 0 the sum is the opcode. -/
theorem sum16_opcode_toNat (op : Byte) : (sum16 op 0 0 0 0).toNat = op.toNat := sum16_command_toNat op 0

/-! ### How a write ends -/

theorem writeResult_of_sent {o : WriteOutcome} (h : o = .sent) : writeResult o = .ok := by
  rw [h]
  rfl

/-- A write that returns and did not send everything has failed (70_reset_and_hazards.md R215). -/
theorem writeResult_of_returns {s : State} (hreturns : writeReturns s = true) (hne : (writeAnswer s).outcome ≠ .sent) :
    writeResult (writeAnswer s).outcome = .err .transportError := by
  unfold writeReturns at hreturns
  cases ho : (writeAnswer s).outcome with
  | sent => exact absurd ho hne
  | failed n => rfl
  | never n =>
    rw [ho] at hreturns
    cases hreturns

/-- Under `TransportFair` the write returns, and so does the read (70_reset_and_hazards.md R215). -/
theorem transportFair_iff {s : State} :
    transportFair s = true ↔ writeReturns s = true ∧ (commandReadAnswer s).returns = true := Bool.and_eq_true_iff

/-! ### The transport primitives by hand -/

/-- `TWrite` by hand (43_commands.md R150). -/
theorem performEvent_twrite (bytes : List Byte) (s : State) :
    performEvent (.twrite bytes) s =
      .next (setResult (writeResult (writeAnswer s).outcome) (transportWrite bytes s)) := rfl

/-- `TRead` by hand (43_commands.md R150). -/
theorem performEvent_tread (d : Timeout) (s : State) :
    performEvent (.tread d) s = .next (setResult
      (if (readAnswer s).returns then
        if (transportRead d s).rxi.val = 8 then .ok else .err .transportError
      else .pending) (transportRead d s)) := execTRead_eq d s

/-- The three ways a `TWrite` can end, with what its caller gets and what reaches the module (20_memory.md R49; U11). -/
theorem writeOutcome_cases (o : WriteOutcome) (bytes : List Byte) :
    (o = .sent ∧ writeResult o = .ok ∧ deliveredPart o bytes = bytes) ∨
      (∃ n, o = .failed n ∧ writeResult o = .err .transportError ∧ deliveredPart o bytes = bytes.take n) ∨
      ∃ n, o = .never n ∧ writeResult o = .pending ∧ deliveredPart o bytes = bytes.take n := by
  cases o with
  | sent => exact .inl ⟨rfl, rfl, rfl⟩
  | failed n => exact .inr (.inl ⟨n, rfl, rfl, rfl⟩)
  | never n => exact .inr (.inr ⟨n, rfl, rfl, rfl⟩)

/-! ### The two templates -/

/-- What `SendOnly` leaves, field by field (43_commands.md R151). -/
theorem sendOnly_eq (op a : Byte) (s : State) :
    sendOnly op a s =
      { s with
        txf := buildRequest op a 0 0 0
        txi := 8
        acc := sum16 op a 0 0 0
        rxf := (pushAllRx (writeAnswer s).arrived s).rxf
        rxi := (pushAllRx (writeAnswer s).arrived s).rxi
        result := writeResult (writeAnswer s).outcome
        emitted := s.emitted ++ commandFrame op a
        calls := s.calls ++ [.write (commandFrame op a)]
        delivered := s.delivered ++ deliveredPart (writeAnswer s).outcome (commandFrame op a)
        writeAnswers := s.writeAnswers.tail
        draws := s.draws + (if s.writeAnswers.isEmpty then 1 else 0) } := by
  rw [sendOnly, sendRequest_eq, buildRequest_toList_eq_commandFrame]
  rfl

/-- `SendRecv` whose write fails or does not return is `RXCLR` and then `SendOnly`: it makes no read
(43_commands.md R152, R168). -/
theorem sendRecv_eq_sendOnly {op a : Byte} {d : Timeout} {s : State} (h : (writeAnswer s).outcome ≠ .sent) :
    sendRecv op a d s = sendOnly op a (clearRx s) := sendRecv_of_not_sent op a d s h

/-- Under `TransportFair`, what `SendRecv` leaves after a successful write: the byte it returns is byte 2 of a full
register (43_commands.md R152). -/
theorem sendRecv_of_fair {op a : Byte} {d : Timeout} {s : State} (hsent : (writeAnswer s).outcome = .sent)
    (hfair : transportFair s = true) :
    sendRecv op a d s =
      { s with
        txf := buildRequest op a 0 0 0
        txi := 8
        acc := sum16 op a 0 0 0
        rxf := (pushAllRx (commandArrivals s) (clearRx s)).rxf
        rxi := (pushAllRx (commandArrivals s) (clearRx s)).rxi
        result :=
          if (pushAllRx (commandArrivals s) (clearRx s)).rxi.val = 8
            then .okByte (pushAllRx (commandArrivals s) (clearRx s)).rxf[2] else .err .transportError
        emitted := s.emitted ++ commandFrame op a
        calls := s.calls ++ [.write (commandFrame op a), .read 8 d]
        delivered := s.delivered ++ commandFrame op a
        writeAnswers := s.writeAnswers.tail
        readAnswers := s.readAnswers.tail
        draws := s.draws + (if s.writeAnswers.isEmpty then 1 else 0) + (if s.readAnswers.isEmpty then 1 else 0) } := by
  rw [sendRecv_sent_eq op a d s hsent, if_pos (transportFair_iff.1 hfair).2, buildRequest_toList_eq_commandFrame]

/-- A command without a response whose write returns (43_commands.md R151). -/
theorem sendOnly_result_of_returns {op a : Byte} {s : State} (hreturns : writeReturns s = true) :
    (sendOnly op a s).result = .ok ∨ (sendOnly op a s).result = .err .transportError := by
  by_cases hsent : (writeAnswer s).outcome = .sent
  · exact .inl (writeResult_of_sent hsent)
  · exact .inr (writeResult_of_returns hreturns hsent)

/-- A response-bearing command returns `RXF[2]` of a full register or `Err(TransportError)`, under `TransportFair`; if its
read failed the register is not full (43_commands.md R168). -/
theorem sendRecv_result_of_fair {op a : Byte} {d : Timeout} {s : State} (hfair : transportFair s = true) :
    ((sendRecv op a d s).result = .okByte (sendRecv op a d s).rxf[2] ∧ (sendRecv op a d s).rxi.val = 8) ∨
      ((sendRecv op a d s).result = .err .transportError ∧
        ((writeAnswer s).outcome = .sent → (sendRecv op a d s).rxi.val < 8)) := by
  by_cases hsent : (writeAnswer s).outcome = .sent
  · rw [sendRecv_of_fair hsent hfair]
    by_cases hfull : (pushAllRx (commandArrivals s) (clearRx s)).rxi.val = 8
    · exact .inl ⟨if_pos hfull, hfull⟩
    · exact .inr ⟨if_neg hfull, fun _ => by simp only; omega⟩
  · rw [sendRecv_eq_sendOnly hsent]
    exact .inr ⟨writeResult_of_returns (s := s) (transportFair_iff.1 hfair).1 hsent, fun h => absurd h hsent⟩

/-- The calls of a response-bearing command: its write, and the read if the write succeeds (43_commands.md R166). -/
theorem sendRecv_calls (op a : Byte) (d : Timeout) (s : State) :
    (sendRecv op a d s).calls =
      s.calls ++ .write (commandFrame op a) :: if (writeAnswer s).outcome = .sent then [.read 8 d] else [] := by
  by_cases hsent : (writeAnswer s).outcome = .sent
  · rw [sendRecv_sent_eq op a d s hsent, if_pos hsent, buildRequest_toList_eq_commandFrame]
  · rw [sendRecv_eq_sendOnly hsent, if_neg hsent, sendOnly_eq]
    rfl

/-- The timeout shows in the recorded calls only (43_commands.md R167). -/
theorem sendRecv_timeout (op a : Byte) (d e : Timeout) (s : State) :
    sendRecv op a e s = { sendRecv op a d s with calls := (sendRecv op a e s).calls } := by
  by_cases hsent : (writeAnswer s).outcome = .sent
  · rw [sendRecv_sent_eq op a d s hsent, sendRecv_sent_eq op a e s hsent]
  · rw [sendRecv_eq_sendOnly hsent, sendRecv_eq_sendOnly hsent]

/-- The sum of its frame's bytes is what a command leaves in `ACC`. -/
theorem sendRecv_acc (op a : Byte) (d : Timeout) (s : State) : (sendRecv op a d s).acc = sum16 op a 0 0 0 := by
  by_cases hsent : (writeAnswer s).outcome = .sent
  · rw [sendRecv_sent_eq op a d s hsent]
  · rw [sendRecv_eq_sendOnly hsent, sendOnly_eq]

/-- What arrives after an `RXCLR`: how many bytes the register holds, and which (42_deserializer.md R138). -/
theorem pushAllRx_clearRx_received (bs : List Byte) (s : State) :
    (pushAllRx bs (clearRx s)).rxi.val = min 8 bs.length ∧
      (pushAllRx bs (clearRx s)).rxf.toList.take (pushAllRx bs (clearRx s)).rxi.val = bs.take 8 := by
  simpa [clearRx] using pushAllRx_received bs (clearRx s)

/-! ### The commands -/

/-- Each of the seven is `SendOnly` with its row's opcode and operand (43_commands.md R153 to R163). -/
theorem exec_of_mem_sendOnlyCommands {a op p : Byte} {i : Instr} (h : (i, op, p) ∈ sendOnlyCommands a) (s : State) :
    exec i s = .next (sendOnly op p s) := by
  simp only [sendOnlyCommands, List.mem_cons, Prod.mk.injEq, List.not_mem_nil, or_false] at h
  obtain h | h | h | h | h | h | h := h <;> obtain ⟨rfl, rfl, rfl⟩ := h <;> rfl

/-- Each of the four is `SendRecv` with its row's opcode and the caller's timeout (43_commands.md R156 to R162). -/
theorem exec_of_mem_sendRecvCommands {d : Timeout} {op : Byte} {i : Instr} (h : (i, op) ∈ sendRecvCommands d)
    (s : State) : exec i s = .next (sendRecv op 0 d s) := by
  simp only [sendRecvCommands, List.mem_cons, Prod.mk.injEq, List.not_mem_nil, or_false] at h
  obtain h | h | h | h := h <;> obtain ⟨rfl, rfl⟩ := h <;> rfl

/-- A command is one of the two templates with its own opcode (43_commands.md R151, R152). -/
theorem exec_of_commandOf {i : Instr} {k : Command} {a : Byte} (h : commandOf i = some (k, a)) (s : State) :
    (keepsReceiving i = true ∧ exec i s = .next (sendOnly (commandOpcode Config.vocab k) a s)) ∨
      (keepsReceiving i = false ∧ ∃ d, exec i s = .next (sendRecv (commandOpcode Config.vocab k) a d s)) := by
  cases hk : keepsReceiving i with
  | true => exact .inl ⟨rfl, exec_of_keepsReceiving i k a s h hk⟩
  | false =>
    obtain ⟨d, rfl, hexec⟩ := exec_of_not_keepsReceiving i k a s h hk
    exact .inr ⟨rfl, d, hexec⟩

/-- What every command leaves on the transmit side: its frame, whole and sent (43_commands.md R168). -/
theorem exec_command_tx {i : Instr} {k : Command} {a : Byte} (h : commandOf i = some (k, a)) (s : State) :
    ∃ t, exec i s = .next t ∧ t.txi = 8 ∧ t.txf = buildRequest (commandOpcode Config.vocab k) a 0 0 0 ∧
      t.acc.toNat = (commandOpcode Config.vocab k).toNat + a.toNat ∧
      t.emitted = s.emitted ++ serialize (buildRequest (commandOpcode Config.vocab k) a 0 0 0) := by
  obtain ⟨-, hexec⟩ | ⟨-, d, hexec⟩ := exec_of_commandOf h s
  · obtain ⟨htxi, hemitted⟩ := sendOnly_tx (commandOpcode Config.vocab k) a s
    refine ⟨_, hexec, htxi, sendOnly_txf _ a s, ?_, hemitted⟩
    rw [sendOnly_eq]
    exact sum16_command_toNat _ a
  · obtain ⟨htxi, hemitted⟩ := sendRecv_tx (commandOpcode Config.vocab k) a d s
    refine ⟨_, hexec, htxi, sendRecv_txf _ a d s, ?_, hemitted⟩
    rw [sendRecv_acc]
    exact sum16_command_toNat _ a

/-- A command that takes a timeout is `SendRecv` with that timeout, whatever it is (43_commands.md R167). -/
theorem exec_of_takesTimeout {f : Timeout → Instr}
    (h : f ∈ [Instr.cmdIsPressed, Instr.cmdUserCount, Instr.cmdIdentify, Instr.cmdLastId]) :
    ∃ op, ∀ d s, exec (f d) s = .next (sendRecv op 0 d s) := by
  simp only [List.mem_cons, List.not_mem_nil, or_false] at h
  obtain rfl | rfl | rfl | rfl := h <;> exact ⟨_, fun _ _ => rfl⟩

/-- From `CleanEntry` nothing is a hazard (70_reset_and_hazards.md R205, R217). -/
theorem hazardFree_of_cleanEntry (i : Instr) {s : State} (h : cleanEntry s = true) : hazardFree i s = true := by
  simp only [cleanEntry, Bool.or_eq_true, beq_iff_eq] at h
  obtain h | h := h <;> simp [hazardFree, h]

end Sys2Proof.Machine

open Sys2Proof Sys2Proof.Machine Sys2Proof.Claims

/-- Settles O46: the call ends in one of three ways, and only the receive side takes what arrives. -/
theorem writeDeliversAllOrAPrefix : Obligations.WriteDeliversAllOrAPrefix := by
  unfold Obligations.WriteDeliversAllOrAPrefix
  intro bytes s
  obtain ⟨hindex, hbytes⟩ := pushAllRx_received (writeAnswer s).arrived s
  refine ⟨_, performEvent_twrite bytes s, ?_⟩
  rw [transportWrite_eq, serialize_eq_toList, serialize_eq_toList]
  refine ⟨rfl, ?_, hindex, hbytes, fun hnone => ?_, rfl, rfl, rfl, rfl, rfl, rfl, rfl, rfl⟩
  · obtain ⟨hsent, hresult, hall⟩ | ⟨n, hfailed, hresult, hprefix⟩ | ⟨n, hnever, hresult, hprefix⟩ :=
      writeOutcome_cases (writeAnswer s).outcome bytes
    · exact .inl ⟨hsent, hresult, congrArg (s.delivered ++ ·) hall⟩
    · exact .inr (.inl ⟨n, hfailed, hresult, congrArg (s.delivered ++ ·) hprefix⟩)
    · exact .inr (.inr ⟨n, hnever, hresult, congrArg (s.delivered ++ ·) hprefix⟩)
  · simp [hnone]

/-- Settles O47: the result of a read that returns is read off the index that the arrivals leave. -/
theorem readSucceedsExactlyWhenFrameIsFull : Obligations.ReadSucceedsExactlyWhenFrameIsFull := by
  unfold Obligations.ReadSucceedsExactlyWhenFrameIsFull
  intro d s
  obtain ⟨hindex, hbytes⟩ := pushAllRx_received (readAnswer s).arrived s
  refine ⟨_, performEvent_tread d s, ?_⟩
  rw [transportRead_eq, serialize_eq_toList, serialize_eq_toList]
  refine ⟨rfl, hindex, hbytes, fun hreturns => ⟨fun hfull => ?_, fun hshort => ?_⟩, fun hreturns => ?_,
    rfl, rfl, rfl, rfl, rfl, rfl, rfl, rfl, rfl⟩
  · exact (if_pos hreturns).trans (if_pos hfull)
  · exact (if_pos hreturns).trans (if_neg (Nat.ne_of_lt hshort))
  · exact if_neg (by simp [hreturns])

/-- Settles O29: each of the seven is `SendOnly`. -/
theorem sendOnlyCommandsWriteOneFrame : Obligations.SendOnlyCommandsWriteOneFrame := by
  unfold Obligations.SendOnlyCommandsWriteOneFrame
  intro a s i op p hmem
  refine ⟨_, exec_of_mem_sendOnlyCommands hmem s, ?_⟩
  rw [sendOnly_eq]
  refine ⟨buildRequest_toList_eq_commandFrame op p, rfl, sum16_command_toNat op p, rfl, rfl, fun hnone => ?_, rfl, rfl,
    rfl, rfl, rfl, rfl, rfl, writeResult_of_sent, writeResult_of_returns⟩
  simp [hnone]

/-- Settles O30: the first eight bytes after the `RXCLR` fill the register, so the read succeeds. -/
theorem sendRecvCommandsReturnStatusByte : Obligations.SendRecvCommandsReturnStatusByte := by
  unfold Obligations.SendRecvCommandsReturnStatusByte
  intro d s i op b0 b1 b2 b3 b4 b5 b6 b7 more hmem hfair hsent harrivals
  obtain ⟨hrxi, hrxf⟩ := pushAllRx_of_cleared #v[b0, b1, b2, b3, b4, b5, b6, b7] more (s := clearRx s) rfl
  refine ⟨_, exec_of_mem_sendRecvCommands hmem s, ?_⟩
  rw [sendRecv_of_fair hsent hfair, harrivals]
  refine ⟨?_, buildRequest_toList_eq_commandFrame op 0, rfl, sum16_opcode_toNat op, hrxf, congrArg Fin.val hrxi, rfl, rfl,
    rfl, rfl, rfl, rfl, rfl⟩
  exact (if_pos (congrArg Fin.val hrxi)).trans (congrArg (fun f : Frame => Result.okByte f[2]) hrxf)

/-- Settles O31: fewer than eight bytes do not fill the register, so the read fails. -/
theorem sendRecvShortReadIsTransportError : Obligations.SendRecvShortReadIsTransportError := by
  unfold Obligations.SendRecvShortReadIsTransportError
  intro d s i op hmem hfair hsent hshort
  obtain ⟨hindex, hbytes⟩ := pushAllRx_clearRx_received (commandArrivals s) s
  rw [Nat.min_eq_right hshort.le] at hindex
  rw [hindex, List.take_of_length_le hshort.le] at hbytes
  refine ⟨_, exec_of_mem_sendRecvCommands hmem s, ?_⟩
  rw [sendRecv_of_fair hsent hfair, serialize_eq_toList]
  exact ⟨if_neg (by omega), buildRequest_toList_eq_commandFrame op 0, rfl, sum16_opcode_toNat op, hindex, hbytes, rfl,
    rfl, rfl, rfl, rfl, rfl, rfl⟩

/-- Settles O32: with a failed write `SendRecv` is `RXCLR` and then `SendOnly`, which makes no read. -/
theorem sendRecvFailedWriteMakesNoRead : Obligations.SendRecvFailedWriteMakesNoRead := by
  unfold Obligations.SendRecvFailedWriteMakesNoRead
  intro d s i op n hmem hfailed
  obtain ⟨hindex, hbytes⟩ := pushAllRx_clearRx_received (writeAnswer s).arrived s
  refine ⟨_, exec_of_mem_sendRecvCommands hmem s, ?_⟩
  rw [sendRecv_eq_sendOnly (by simp [hfailed]), sendOnly_eq, writeAnswer_clearRx, hfailed, serialize_eq_toList]
  refine ⟨rfl, buildRequest_toList_eq_commandFrame op 0, rfl, sum16_opcode_toNat op, hindex, hbytes, fun hnone => ?_,
    rfl, rfl, rfl, rfl, rfl, rfl, rfl⟩
  rw [hnone]
  rfl

/-- Settles O33: the transmit side is the frame's; the receive side and the result are the template's. -/
theorem everyCommandReturnsAndLeavesTransmitIdle : Obligations.EveryCommandReturnsAndLeavesTransmitIdle := by
  unfold Obligations.EveryCommandReturnsAndLeavesTransmitIdle
  intro i k a s hcommand
  obtain ⟨t, hexec, htxi, htxf, hacc, -⟩ := exec_command_tx hcommand s
  refine ⟨t, hexec, congrArg Fin.val htxi, htxf, hacc, ?_⟩
  obtain ⟨hk, htemplate⟩ | ⟨hk, d, htemplate⟩ := exec_of_commandOf hcommand s
  · cases htemplate.symm.trans hexec
    rw [hk]
    exact ⟨fun _ => sendOnly_result_of_returns, fun _ => sendOnly_rx _ a s, nofun⟩
  · cases htemplate.symm.trans hexec
    rw [hk]
    exact ⟨nofun, nofun, fun _ => sendRecv_result_of_fair⟩

/-- Settles O35: `SendOnly` writes once; `SendRecv` writes once and reads after a successful write only. -/
theorem commandsCallTheTransportAtMostTwice : Obligations.CommandsCallTheTransportAtMostTwice := by
  unfold Obligations.CommandsCallTheTransportAtMostTwice
  intro i k a s hcommand
  obtain ⟨hk, hexec⟩ | ⟨hk, d, hexec⟩ := exec_of_commandOf hcommand s
  · refine ⟨_, hexec, ?_⟩
    rw [hk, sendOnly_eq]
    exact ⟨fun _ => ⟨_, rfl⟩, nofun⟩
  · refine ⟨_, hexec, ?_⟩
    rw [hk, sendRecv_calls]
    exact ⟨nofun, fun _ => ⟨fun hsent => ⟨_, d, by rw [if_pos hsent]⟩, fun hne => ⟨_, by rw [if_neg hne]⟩⟩⟩

/-- Settles O36: the four commands are `SendRecv`, where the timeout reaches the recorded read alone. -/
theorem timeoutOnlyReachesTheRead : Obligations.TimeoutOnlyReachesTheRead := by
  unfold Obligations.TimeoutOnlyReachesTheRead
  intro d e s f hf
  obtain ⟨op, hexec⟩ := exec_of_takesTimeout hf
  refine ⟨_, _, hexec d s, hexec e s, sendRecv_timeout op 0 d e s, fun n x hread => ?_⟩
  rw [sendRecv_calls, List.drop_left] at hread
  split_ifs at hread with hsent
  · simpa using hread
  · simp at hread

/-- Settles O44: a command from `CleanEntry` cuts no frame off, and what it emits is its own frame whole. -/
theorem commandsFromCleanEntryKeepTheWireWhole : Obligations.CommandsFromCleanEntryKeepTheWireWhole := by
  unfold Obligations.CommandsFromCleanEntryKeepTheWireWhole
  intro i k a s hcommand hclean
  obtain ⟨t, hexec, htxi, -, -, hemitted⟩ := exec_command_tx hcommand s
  have hsafe := hazardFree_of_cleanEntry i hclean
  have hclean' : cleanEntry t = true := by
    rw [cleanEntry, htxi]
    rfl
  exact ⟨t, hexec, hsafe, hclean', hemitted, fun hs => exec_keeps_wireSound hs hsafe hexec⟩

/-- Settles O37: the status byte comes back as it arrived, and one name has its value. -/
theorem isPressedReturnsTheExactAckCode : Obligations.IsPressedReturnsTheExactAckCode := by
  unfold Obligations.IsPressedReturnsTheExactAckCode
  intro v d s b0 b1 b3 b4 b5 b6 b7 hfair hsent harrivals hunique
  obtain ⟨t, hexec, hresult, -⟩ := sendRecvCommandsReturnStatusByte d s (.cmdIsPressed d) Config.vocab.opIsPressed
    b0 b1 0xB1 b3 b4 b5 b6 b7 [] (by simp [sendRecvCommands]) hfair hsent harrivals
  exact ⟨t, hexec, hresult, (ackDecode_eq_some_iff v 0xB1 .fingerNotPresent).2 ⟨rfl, hunique⟩⟩
end

section
/-! PROOF. 30_encoding.md R76 and 20_memory.md R48: a command as one step is its operations performed one by one,
wherever among them the transport pushes what arrives. -/

namespace Sys2Proof.Machine

open Sys2Proof.Claims

/-! ### Runs up to the last result -/

/-- Performing the events takes `s` to `u`, but for the results, whatever the last result was. -/
def runsTo (es : List Issued) (s u : State) : Prop :=
  ∀ r₀, ∃ r, runIssued es (setResult r₀ s) = some (setResult r u)

theorem runsTo_append {es fs : List Issued} {s t u : State} (hes : runsTo es s t) (hfs : runsTo fs t u) :
    runsTo (es ++ fs) s u := by
  intro r₀
  obtain ⟨r₁, h₁⟩ := hes r₀
  obtain ⟨r, h⟩ := hfs r₁
  exact ⟨r, (runIssued_append es fs _ _ h₁).trans h⟩

/-- One event of an agent that is not blocked. -/
theorem runIssued_singleton {who : Issuer} {e : Event} {s t : State} (hb : who ∉ s.blocked)
    (h : performEvent e s = .next t) : runIssued [⟨who, e⟩] s = some (noteBlocked who t) := by
  simp only [runIssued, performIssued_of_not_blocked ⟨who, e⟩ s t hb h]

/-- One event that does not leave its issuer waiting (70_reset_and_hazards.md R210). -/
theorem runsTo_singleton {who : Issuer} {e : Event} {s u : State} (hb : who ∉ s.blocked)
    (h : ∀ r₀, ∃ r, r ≠ .pending ∧ performEvent e (setResult r₀ s) = .next (setResult r u)) :
    runsTo [⟨who, e⟩] s u := by
  intro r₀
  obtain ⟨r, hr, hperform⟩ := h r₀
  refine ⟨r, (runIssued_singleton (s := setResult r₀ s) hb hperform).trans ?_⟩
  rw [noteBlocked_of_ne_pending who (setResult r u) hr]

/-- A host's instruction that completes with a result. -/
theorem runsTo_byHost {c : Nat} {i : Instr} {s u : State} (hb : .host c ∉ s.blocked)
    (h : ∀ r₀, ∃ r, r ≠ .pending ∧ exec i (setResult r₀ s) = .next (setResult r u)) :
    runsTo [byHost c i] s u :=
  runsTo_singleton hb fun r₀ => by simpa [byName] using h r₀

/-- A last event, whose result is that of the run and may leave its issuer waiting. -/
theorem runIssued_append_singleton {es : List Issued} {who : Issuer} {e : Event} {s t u : State} (h : runsTo es s u)
    (hb : who ∉ u.blocked) (hperform : ∀ r, performEvent e (setResult r u) = .next t) :
    runIssued (es ++ [⟨who, e⟩]) s = some (noteBlocked who t) := by
  obtain ⟨r, hr⟩ := h s.result
  exact (runIssued_append es _ s _ hr).trans (runIssued_singleton (s := setResult r u) hb (hperform r))

/-! ### The blocked agents stay -/

@[simp] theorem pushAllRx_blocked (bs : List Byte) (s : State) : (pushAllRx bs s).blocked = s.blocked := by
  rw [pushAllRx_frame]

@[simp] theorem buildFrame_blocked (op p0 p1 p2 p3 : Byte) (s : State) :
    (buildFrame op p0 p1 p2 p3 s).blocked = s.blocked := rfl

@[simp] theorem finishTx_blocked (s : State) : (finishTx s).blocked = s.blocked := rfl

@[simp] theorem sendRequest_blocked (op a : Byte) (s : State) : (sendRequest op a s).blocked = s.blocked := by
  rw [sendRequest_eq]

/-! ### The operations of a command -/

/-- What the transport pushes is received (20_memory.md R43). -/
theorem runsTo_pushEvents (bs : List Byte) {s : State} (hb : .transport ∉ s.blocked) :
    runsTo (pushEvents bs) s (pushAllRx bs s) := by
  induction bs generalizing s with
  | nil => exact fun r₀ => ⟨r₀, rfl⟩
  | cons b bs ih =>
    have hpush : runsTo [⟨.transport, byName (.rxpush b)⟩] s (pushAllRx [b] s) := by
      refine runsTo_singleton hb fun r₀ => ⟨.nothing, nofun, ?_⟩
      rw [byName, performEvent_named, exec_rxpush_eq, pushAllRx_setResult]
      rfl
    exact runsTo_append hpush (ih (by rwa [pushAllRx_blocked]))

/-- Bytes received before or after `BUILD` leave the same state (41_serializer.md R117). -/
theorem pushAllRx_buildFrame (bs : List Byte) (op p0 p1 p2 p3 : Byte) (s : State) :
    pushAllRx bs (buildFrame op p0 p1 p2 p3 s) = buildFrame op p0 p1 p2 p3 (pushAllRx bs s) := by
  rw [pushAllRx_of_same_rx bs (buildFrame op p0 p1 p2 p3 s) s rfl rfl, pushAllRx_frame bs s]
  rfl

/-- Bytes received before or after `SER` leave the same state (41_serializer.md R117). -/
theorem pushAllRx_finishTx (bs : List Byte) (s : State) : pushAllRx bs (finishTx s) = finishTx (pushAllRx bs s) := by
  rw [pushAllRx_of_same_rx bs (finishTx s) s rfl rfl, pushAllRx_frame bs s]
  rfl

theorem transportWrite_setResult (bytes : List Byte) (r : Result) (s : State) :
    transportWrite bytes (setResult r s) = setResult r (transportWrite bytes s) := by
  rw [transportWrite_eq, transportWrite_eq, pushAllRx_setResult]
  rfl

theorem transportRead_setResult (d : Timeout) (r : Result) (s : State) :
    transportRead d (setResult r s) = setResult r (transportRead d s) := by
  rw [transportRead_eq, transportRead_eq, pushAllRx_setResult]
  rfl

section
variable (c : Nat) (op p : Byte) (w x y : List Byte) {s : State} (hc : .host c ∉ s.blocked)
  (ht : .transport ∉ s.blocked)
include hc ht

/-- `BUILD` and `SER`, with pushes before, between and after them, are both with all the bytes received first
(41_serializer.md R117). -/
theorem runsTo_build_ser :
    runsTo (pushEvents w ++ [byHost c (.build op p 0 0 0)] ++ pushEvents x ++ [byHost c .ser] ++ pushEvents y) s
      (finishTx (buildFrame op p 0 0 0 (pushAllRx (w ++ x ++ y) s))) := by
  have hbuild : ∀ t : State, .host c ∉ t.blocked → runsTo [byHost c (.build op p 0 0 0)] t (buildFrame op p 0 0 0 t) :=
    fun t hb => runsTo_byHost hb fun _ => ⟨.nothing, nofun, rfl⟩
  have hser : ∀ t : State, .host c ∉ t.blocked → runsTo [byHost c .ser] t (finishTx t) :=
    fun t hb => runsTo_byHost hb fun _ => ⟨.bytes (remainingTxBytes t), nofun, rfl⟩
  rw [pushAllRx_append, pushAllRx_append, ← pushAllRx_buildFrame, ← pushAllRx_finishTx, ← pushAllRx_buildFrame]
  refine runsTo_append (runsTo_append (runsTo_append (runsTo_append (runsTo_pushEvents w ht) (hbuild _ ?_))
    (runsTo_pushEvents x ?_)) (hser _ ?_)) (runsTo_pushEvents y ?_)
  all_goals simpa

/-- The same after `RXCLR`. -/
theorem runsTo_rxclr_build_ser :
    runsTo ([byHost c .rxclr] ++ pushEvents w ++ [byHost c (.build op p 0 0 0)] ++ pushEvents x ++ [byHost c .ser] ++
      pushEvents y) s (finishTx (buildFrame op p 0 0 0 (pushAllRx (w ++ x ++ y) (clearRx s)))) := by
  have hclear : runsTo [byHost c .rxclr] s (clearRx s) := runsTo_byHost hc fun _ => ⟨.nothing, nofun, rfl⟩
  have hrest := runsTo_append hclear (runsTo_build_ser c op p w x y (s := clearRx s) hc ht)
  simpa only [List.append_assoc] using hrest

end

/-- `SendOnly` is the `TWrite` of the command frame after `BUILD` and `SER` (43_commands.md R151). -/
theorem performEvent_twrite_commandFrame (op a : Byte) (r : Result) (s : State) :
    performEvent (.twrite (commandFrame op a)) (setResult r (finishTx (buildFrame op a 0 0 0 s))) =
      .next (sendOnly op a s) := by
  rw [performEvent_twrite, transportWrite_setResult, ← buildRequest_toList_eq_commandFrame]
  rfl

/-- `TRead` does not look at the last result (43_commands.md R150). -/
theorem performEvent_tread_setResult (d : Timeout) (r : Result) (s : State) :
    performEvent (.tread d) (setResult r s) = performEvent (.tread d) s := by
  rw [performEvent_tread, performEvent_tread, transportRead_setResult]
  rfl

/-- A `TWrite` of the command frame that succeeds lets the run go on. -/
theorem runsTo_twrite_of_sent {es : List Issued} {c : Nat} {op a : Byte} {s u : State}
    (h : runsTo es s (finishTx (buildFrame op a 0 0 0 u))) (hc : .host c ∉ u.blocked)
    (hsent : (writeAnswer u).outcome = .sent) :
    runsTo (es ++ [⟨.host c, .twrite (commandFrame op a)⟩]) s (sendRequest op a u) := by
  refine runsTo_append h (runsTo_singleton hc fun r₀ => ⟨.ok, nofun, ?_⟩)
  rw [performEvent_twrite_commandFrame, sendOnly, writeResult_of_sent hsent]

/-! ### Bytes that arrive before a call, or in it -/

@[simp] theorem writeAnswer_pushAllRx (bs : List Byte) (s : State) : writeAnswer (pushAllRx bs s) = writeAnswer s := by
  rw [pushAllRx_frame]
  rfl

@[simp] theorem readAnswer_pushAllRx (bs : List Byte) (s : State) : readAnswer (pushAllRx bs s) = readAnswer s := by
  rw [pushAllRx_frame]
  rfl

/-- Bytes received just before the request count as arriving in its write (20_memory.md R48; assumption log 4). -/
theorem sendRequest_of_received {op a : Byte} {ws last : List Byte} {o : WriteOutcome} {was : List WriteAnswer} {s : State}
    (h : s.writeAnswers = ⟨o, ws ++ last⟩ :: was) :
    sendRequest op a (pushAllRx ws (setWriteAnswers (⟨o, last⟩ :: was) s)) = sendRequest op a s := by
  obtain ⟨hrxi, hrxf⟩ := pushAllRx_congr (ws ++ last) (setWriteAnswers (⟨o, last⟩ :: was) s) s rfl rfl
  have hold : writeAnswer s = ⟨o, ws ++ last⟩ := by rw [writeAnswer, h]
  have hnew : writeAnswer (pushAllRx ws (setWriteAnswers (⟨o, last⟩ :: was) s)) = ⟨o, last⟩ :=
    writeAnswer_pushAllRx _ _
  rw [sendRequest_eq, sendRequest_eq, hold, hnew, ← pushAllRx_append, hrxi, hrxf, h, pushAllRx_frame ws]
  rfl

/-- The same for `SendOnly`. -/
theorem sendOnly_of_received {op a : Byte} {ws last : List Byte} {o : WriteOutcome} {was : List WriteAnswer} {s : State}
    (h : s.writeAnswers = ⟨o, ws ++ last⟩ :: was) :
    sendOnly op a (pushAllRx ws (setWriteAnswers (⟨o, last⟩ :: was) s)) = sendOnly op a s := by
  have hold : (writeAnswer s).outcome = o := by rw [writeAnswer, h]
  have hnew : (writeAnswer (pushAllRx ws (setWriteAnswers (⟨o, last⟩ :: was) s))).outcome = o := by
    rw [writeAnswer_pushAllRx]
    rfl
  rw [sendOnly, sendOnly, sendRequest_of_received h, hold, hnew]

/-- Bytes received just before the read count as arriving in it (20_memory.md R48, R50; 92_eei_decisions.md D20). -/
theorem transportRead_of_received {d : Timeout} {z inRead : List Byte} {r : Bool} {ras : List ReadAnswer} {s : State}
    (h : s.readAnswers = ⟨z ++ inRead, r⟩ :: ras) :
    transportRead d (pushAllRx z (setReadAnswers (⟨inRead, r⟩ :: ras) s)) = transportRead d s := by
  obtain ⟨hrxi, hrxf⟩ := pushAllRx_congr (z ++ inRead) (setReadAnswers (⟨inRead, r⟩ :: ras) s) s rfl rfl
  have hold : readAnswer s = ⟨z ++ inRead, r⟩ := by rw [readAnswer, h]
  have hnew : readAnswer (pushAllRx z (setReadAnswers (⟨inRead, r⟩ :: ras) s)) = ⟨inRead, r⟩ :=
    readAnswer_pushAllRx _ _
  rw [transportRead_eq, transportRead_eq, hold, hnew, ← pushAllRx_append, hrxi, hrxf, h, pushAllRx_frame z]
  rfl

/-- The same for `TRead` by hand. -/
theorem performEvent_tread_of_received {d : Timeout} {z inRead : List Byte} {r : Bool} {ras : List ReadAnswer} {s : State}
    (h : s.readAnswers = ⟨z ++ inRead, r⟩ :: ras) :
    performEvent (.tread d) (pushAllRx z (setReadAnswers (⟨inRead, r⟩ :: ras) s)) = performEvent (.tread d) s := by
  have hold : (readAnswer s).returns = r := by rw [readAnswer, h]
  have hnew : (readAnswer (pushAllRx z (setReadAnswers (⟨inRead, r⟩ :: ras) s))).returns = r := by
    rw [readAnswer_pushAllRx]
    rfl
  rw [performEvent_tread, performEvent_tread, transportRead_of_received h, hold, hnew]

theorem pushAllRx_setReadAnswers (bs : List Byte) (l : List ReadAnswer) (s : State) :
    pushAllRx bs (setReadAnswers l s) = setReadAnswers l (pushAllRx bs s) := by
  rw [pushAllRx_of_same_rx bs (setReadAnswers l s) s rfl rfl, pushAllRx_frame bs s]
  rfl

/-- The write of a request leaves the answers to reads alone. -/
theorem sendRequest_setReadAnswers (op a : Byte) (l : List ReadAnswer) (s : State) :
    sendRequest op a (setReadAnswers l s) = setReadAnswers l (sendRequest op a s) := by
  rw [sendRequest_eq, sendRequest_eq, pushAllRx_setReadAnswers]
  rfl

/-- The run of a response-bearing command up to its read: the write succeeds, and what the transport pushes before it
counts as arriving in it (43_commands.md R152, 20_memory.md R48). -/
theorem runsTo_sendRequest {c : Nat} {op : Byte} {w x y inWrite : List Byte} {was : List WriteAnswer} {s : State}
    (z : List Byte) (ras : List ReadAnswer) (hc : .host c ∉ s.blocked) (ht : .transport ∉ s.blocked)
    (hwrites : s.writeAnswers = ⟨.sent, w ++ x ++ y ++ inWrite⟩ :: was) :
    runsTo ([byHost c .rxclr] ++ pushEvents w ++ [byHost c (.build op 0 0 0 0)] ++ pushEvents x ++ [byHost c .ser] ++
      pushEvents y ++ [⟨.host c, .twrite (commandFrame op 0)⟩] ++ pushEvents z)
      (setWriteAnswers (⟨.sent, inWrite⟩ :: was) (setReadAnswers ras s))
      (pushAllRx z (setReadAnswers ras (sendRequest op 0 (clearRx s)))) := by
  have hreceived : sendRequest op 0 (pushAllRx (w ++ x ++ y)
      (clearRx (setWriteAnswers (⟨.sent, inWrite⟩ :: was) (setReadAnswers ras s)))) =
        setReadAnswers ras (sendRequest op 0 (clearRx s)) := by
    rw [← sendRequest_setReadAnswers]
    exact sendRequest_of_received (s := setReadAnswers ras (clearRx s)) hwrites
  have hserialized := runsTo_rxclr_build_ser c op 0 w x y
    (s := setWriteAnswers (⟨.sent, inWrite⟩ :: was) (setReadAnswers ras s)) hc ht
  have hwritten := runsTo_twrite_of_sent hserialized (by simpa) (by rw [writeAnswer_pushAllRx]; rfl)
  rw [hreceived] at hwritten
  exact runsTo_append hwritten (runsTo_pushEvents z (by simpa))

/-! ### The end of a response-bearing command -/

/-- The end of `SendRecv` is `TRead` and, if that succeeds, `RDSTAT` (43_commands.md R152). -/
theorem receiveStatus_eq_tread_rdstat (d : Timeout) (s : State) :
    ∃ u, performEvent (.tread d) s = .next u ∧
      ((u.result = .ok ∧ ∃ v, exec .rdstat u = .next (setResult (.byte v) u) ∧
          receiveStatus d s = setResult (.okByte v) u) ∨
        (u.result ≠ .ok ∧ receiveStatus d s = u)) := by
  refine ⟨_, performEvent_tread d s, ?_⟩
  rw [receiveStatus_eq]
  by_cases hreturns : (readAnswer s).returns = true
  · rw [if_pos hreturns, if_pos hreturns]
    by_cases hfull : (transportRead d s).rxi.val = 8
    · rw [if_pos hfull, if_pos hfull]
      exact .inl ⟨rfl, _, exec_rdstat_of_full hfull, rfl⟩
    · rw [if_neg hfull, if_neg hfull]
      exact .inr ⟨nofun, rfl⟩
  · rw [if_neg hreturns, if_neg hreturns]
    exact .inr ⟨nofun, rfl⟩

end Sys2Proof.Machine

open Sys2Proof Sys2Proof.Machine Sys2Proof.Claims

/-- Settles O39: `BUILD`, `SER` and `TWrite` are `SendOnly`, and bytes received before the write count as arriving in
it. -/
theorem sendOnlyCommandIsItsExpansion : Obligations.SendOnlyCommandIsItsExpansion := by
  unfold Obligations.SendOnlyCommandIsItsExpansion
  intro a s i op p c o w x y last rest hmem hc ht hanswers
  refine ⟨_, exec_of_mem_sendOnlyCommands hmem s, ?_⟩
  rw [← sendOnly_of_received hanswers]
  exact runIssued_append_singleton (runsTo_build_ser c op p w x y hc ht) (by simpa) fun r =>
    performEvent_twrite_commandFrame op p r _

/-- Settles O41: a `SendRecv` whose write does not succeed is `RXCLR` and then `SendOnly`. -/
theorem failedSendRecvIsItsExpansionInterleaved : Obligations.FailedSendRecvIsItsExpansionInterleaved := by
  unfold Obligations.FailedSendRecvIsItsExpansionInterleaved
  intro d s i op c o w x y inWrite was hmem hc ht ho hanswers
  have hne : (writeAnswer s).outcome ≠ .sent := by rwa [writeAnswer, hanswers]
  refine ⟨_, exec_of_mem_sendRecvCommands hmem s, ?_⟩
  rw [sendRecv_eq_sendOnly hne, ← sendOnly_of_received (s := clearRx s) hanswers]
  exact runIssued_append_singleton (runsTo_rxclr_build_ser c op 0 w x y hc ht) (by simpa) fun r =>
    performEvent_twrite_commandFrame op 0 r _

/-- Settles O40: up to its write `SendRecv` is `RXCLR`, `BUILD`, `SER` and `TWrite`, from there `TRead` and `RDSTAT`, and
bytes received before either call count as arriving in it. -/
theorem sendRecvCommandIsItsExpansionInterleaved : Obligations.SendRecvCommandIsItsExpansionInterleaved := by
  unfold Obligations.SendRecvCommandIsItsExpansionInterleaved
  intro d s i op c r w x y inWrite z inRead was ras hmem hc ht hwrites hreads
  have hsent : (writeAnswer s).outcome = .sent := by rw [writeAnswer, hwrites]
  have hreads' : (sendRequest op 0 (clearRx s)).readAnswers = ⟨z ++ inRead, r⟩ :: ras := by
    rw [sendRequest_eq]
    exact hreads
  obtain ⟨u, hread, hu⟩ := receiveStatus_eq_tread_rdstat d (sendRequest op 0 (clearRx s))
  have hrun := runIssued_append_singleton (who := .host c) (e := .tread d) (t := u)
    (runsTo_sendRequest z (⟨inRead, r⟩ :: ras) hc ht hwrites) (by simpa) fun r₀ => by
      rw [performEvent_tread_setResult, performEvent_tread_of_received hreads', hread]
  refine ⟨_, _, exec_of_mem_sendRecvCommands hmem s, hrun, ?_⟩
  rw [sendRecv_of_sent op 0 d s hsent]
  obtain ⟨hok, v, hrdstat, hstatus⟩ | ⟨hne, hstatus⟩ := hu
  · rw [noteBlocked_of_ne_pending (.host c) u (by simp [hok])]
    exact .inl ⟨hok, v, hrdstat, hstatus⟩
  · rw [hstatus]
    exact .inr ⟨by rwa [noteBlocked_eq], rfl⟩
end

section
/-! PROOF. 60_exceptions.md: no operation is illegal in any state (R180), and `ShortFrame` comes from the two reads of the
receive register alone (R183, R187). -/

namespace Sys2Proof.Machine

/-! ### Results that are no `ShortFrame` -/

/-- A result that is no error of the codec's: neither raised nor passed on as `Err(ShortFrame)` (60_exceptions.md R183). -/
def withoutCodecError (r : Result) : Prop := (∀ e, r ≠ .raised e) ∧ r ≠ .err .shortFrame

/-- A write gives its caller no error of the codec's (43_commands.md R150). -/
theorem withoutCodecError_writeResult (o : WriteOutcome) : withoutCodecError (writeResult o) := by
  cases o with
  | sent | failed | never => exact ⟨nofun, nofun⟩

/-- `SendOnly` returns what its write gave (43_commands.md R151). -/
theorem withoutCodecError_sendOnly (op a : Byte) (s : State) : withoutCodecError (sendOnly op a s).result :=
  withoutCodecError_writeResult (writeAnswer s).outcome

/-- `SendRecv` reads the status of a full register only, so that read cannot raise (43_commands.md R152, R165). -/
theorem withoutCodecError_sendRecv (op a : Byte) (d : Timeout) (s : State) :
    withoutCodecError (sendRecv op a d s).result := by
  by_cases hsent : (writeAnswer s).outcome = .sent
  · rw [sendRecv_sent_eq op a d s hsent]
    dsimp only
    split_ifs <;> exact ⟨nofun, nofun⟩
  · rw [sendRecv_eq_sendOnly hsent]
    exact withoutCodecError_sendOnly op a (clearRx s)

/-! ### How an instruction ends -/

/-- An instruction raises `ShortFrame` as a read of a register that is not full, leaving everything but the result, or
gives no error of the codec's (60_exceptions.md R183, R187). -/
theorem exec_error_cases {i : Instr} {s t : State} (h : exec i s = .next t) :
    ((i = .parse ∨ i = .rdstat) ∧ s.rxi.val < 8 ∧ t = setResult (.raised .shortFrame) s) ∨
      withoutCodecError t.result := by
  cases i with
  | cmdOpen | cmdClose | cmdLed | cmdEnroll | cmdDeleteOne | cmdDeleteAll | cmdCancelEnroll =>
    cases h
    exact .inr (withoutCodecError_sendOnly _ _ s)
  | cmdIsPressed | cmdUserCount | cmdIdentify | cmdLastId =>
    cases h
    exact .inr (withoutCodecError_sendRecv _ _ _ s)
  | parse =>
    rcases Nat.lt_or_ge s.rxi.val 8 with hshort | hge
    · cases (exec_parse_of_short hshort).symm.trans h
      exact .inl ⟨.inl rfl, hshort, rfl⟩
    · cases (exec_parse_of_full (by omega)).symm.trans h
      exact .inr ⟨nofun, nofun⟩
  | rdstat =>
    rcases Nat.lt_or_ge s.rxi.val 8 with hshort | hge
    · cases (exec_rdstat_of_short hshort).symm.trans h
      exact .inl ⟨.inr rfl, hshort, rfl⟩
    · cases (exec_rdstat_of_full (by omega)).symm.trans h
      exact .inr ⟨nofun, nofun⟩
  | request | response | csum | build | txpop | ser | rxclr | rxpush | reset =>
    cases h
    exact .inr ⟨nofun, nofun⟩

end Sys2Proof.Machine

open Sys2Proof Sys2Proof.Machine

/-- Settles O18: an instruction that does not raise as a short read gives no error of the codec's, and both reads do raise
below 8. -/
theorem shortFrameOnlyFromReadsAndPrecise : Obligations.ShortFrameOnlyFromReadsAndPrecise := by
  unfold Obligations.ShortFrameOnlyFromReadsAndPrecise
  refine ⟨fun i s t h => ?_, fun s hshort i hi => ?_⟩
  · obtain ⟨hread, hshort, rfl⟩ | ⟨hraised, herr⟩ := exec_error_cases h
    · refine ⟨fun e he => ?_, nofun⟩
      cases he
      exact ⟨hread, hshort, rfl, rfl⟩
    · exact ⟨fun e he => absurd he (hraised e), herr⟩
  · simp only [List.mem_cons, List.not_mem_nil, or_false] at hi
    obtain rfl | rfl := hi
    · exact exec_parse_of_short hshort
    · exact exec_rdstat_of_short hshort

/-- Settles O26: the two reads of the receive register answer whether or not it is full, and every other instruction is one
update of the state. -/
theorem everyInstructionRunsInEveryState : Obligations.EveryInstructionRunsInEveryState := by
  unfold Obligations.EveryInstructionRunsInEveryState
  intro i s
  cases i with
  | parse => exact ⟨_, exec_parse_eq s⟩
  | rdstat => exact ⟨_, exec_rdstat_eq s⟩
  | cmdOpen | cmdClose | cmdLed | cmdIsPressed | cmdEnroll | cmdDeleteOne | cmdDeleteAll | cmdUserCount | cmdIdentify
  | cmdLastId | cmdCancelEnroll | request | response | csum | build | txpop | ser | rxclr | rxpush | reset =>
    exact ⟨_, rfl⟩
end

section
/-! PROOF. 70_reset_and_hazards.md: what `RESET` leaves (R200, R201), who is blocked (R210), commands whose transport calls
never return (R210, R215), what a command forgets (R212), and what it gives under the named premises (R217). -/

namespace Sys2Proof.Machine

open Sys2Proof.Claims

/-! ### `RESET` -/

/-- What `RESET` leaves (70_reset_and_hazards.md R200). -/
theorem exec_reset_eq (s : State) : exec .reset s = .next (setResult .nothing (resetCodec s)) := rfl

/-- With nothing left to emit `TXPOP` gives `None` and nothing else happens (41_serializer.md R113). -/
theorem exec_txpop_of_eq {s : State} (h : s.txi.val = 8) : exec .txpop s = .next (setResult (.popped none) s) := by
  rw [exec_txpop_eq, nextTxByte_of_eq s h, advanceTx_of_eq s h]

/-- With nothing left to emit `SER` gives the empty sequence and nothing else happens (41_serializer.md R114). -/
theorem exec_ser_of_eq {s : State} (h : s.txi.val = 8) : exec .ser s = .next (setResult (.bytes []) s) := by
  change Host.Outcome.next (setResult (.bytes (remainingTxBytes s)) (finishTx s)) = _
  rw [remainingTxBytes_of_eq s h, finishTx_of_eq s h]

/-! ### Who is blocked -/

@[simp] theorem sendOnly_blocked (op a : Byte) (s : State) : (sendOnly op a s).blocked = s.blocked :=
  sendRequest_blocked op a s

@[simp] theorem sendRecv_blocked (op a : Byte) (d : Timeout) (s : State) :
    (sendRecv op a d s).blocked = s.blocked := by
  by_cases hsent : (writeAnswer s).outcome = .sent
  · rw [sendRecv_sent_eq op a d s hsent]
  · rw [sendRecv_eq_sendOnly hsent, sendOnly_blocked]
    rfl

/-- No instruction writes who is blocked: its step notes that (assumption log 18). -/
theorem exec_keeps_blocked {i : Instr} {s t : State} (h : exec i s = .next t) : t.blocked = s.blocked := by
  cases i with
  | cmdOpen | cmdClose | cmdLed | cmdEnroll | cmdDeleteOne | cmdDeleteAll | cmdCancelEnroll =>
    cases h
    exact sendOnly_blocked _ _ s
  | cmdIsPressed | cmdUserCount | cmdIdentify | cmdLastId =>
    cases h
    exact sendRecv_blocked _ _ _ s
  | txpop =>
    cases h
    rw [advanceTx_eq_addEmitted]
    rfl
  | rxpush b =>
    cases h
    exact pushAllRx_blocked [b] s
  | parse =>
    cases (exec_parse_eq s).symm.trans h
    rfl
  | rdstat =>
    cases (exec_rdstat_eq s).symm.trans h
    rfl
  | request | response | csum | build | ser | rxclr | reset =>
    cases h
    rfl

/-- No event does. -/
theorem performEvent_keeps_blocked {e : Event} {s t : State} (h : performEvent e s = .next t) :
    t.blocked = s.blocked := by
  cases e with
  | issue c =>
    simp only [performEvent] at h
    split at h
    · exact exec_keeps_blocked h
    · cases h
  | twrite bytes =>
    cases h
    rw [transportWrite_eq]
    rfl
  | tread d =>
    cases (performEvent_tread d s).symm.trans h
    rw [transportRead_eq]
    rfl

/-- A step leaves who is blocked as it was, unless its event's result is pending (70_reset_and_hazards.md R210). -/
theorem step_blocked_cases {s t : State} (h : step s = .next t) :
    t.blocked = s.blocked ∨
      (t.result = .pending ∧ ∃ e rest, s.issued = e :: rest ∧ e.issuer ∉ s.blocked ∧
        t.blocked = s.blocked ++ [e.issuer]) := by
  obtain ⟨-, rfl⟩ | ⟨e, rest, hissued, ⟨-, rfl⟩ | ⟨hb, u, hu, rfl⟩⟩ := step_cases s t h
  · exact .inl rfl
  · exact .inl rfl
  · have hkept : u.blocked = s.blocked := performEvent_keeps_blocked (s := setIssued rest s) hu
    by_cases hpending : u.result = .pending
    · rw [noteBlocked, if_pos hpending]
      exact .inr ⟨hpending, e, rest, hissued, hb, congrArg (· ++ [e.issuer]) hkept⟩
    · rw [noteBlocked_of_ne_pending e.issuer u hpending]
      exact .inl hkept

/-- An agent whose event a step performs with the result pending is blocked from then on (70_reset_and_hazards.md
R210). -/
theorem mem_blocked_of_step_pending {s t : State} {e : Issued} {rest : List Issued} (hissued : s.issued = e :: rest)
    (hb : e.issuer ∉ s.blocked) (h : step s = .next t) (hpending : t.result = .pending) : e.issuer ∈ t.blocked := by
  obtain ⟨hnil, -⟩ | ⟨e', rest', hissued', hstep⟩ := step_cases s t h
  · cases hissued.symm.trans hnil
  · cases hissued.symm.trans hissued'
    obtain ⟨hb', -⟩ | ⟨-, u, -, rfl⟩ := hstep
    · exact absurd hb' hb
    · rw [noteBlocked_eq] at hpending ⊢
      simp [show u.result = .pending from hpending]

/-! ### Commands whose transport calls never return -/

/-- A write that does not return gives its caller nothing (70_reset_and_hazards.md R210). -/
theorem writeResult_of_not_returns {s : State} (h : writeReturns s = false) :
    writeResult (writeAnswer s).outcome = .pending := by
  unfold writeReturns at h
  cases ho : (writeAnswer s).outcome with
  | sent | failed =>
    rw [ho] at h
    cases h
  | never n => rfl

/-- A write that does not return has not succeeded. -/
theorem outcome_ne_sent_of_not_returns {s : State} (h : writeReturns s = false) : (writeAnswer s).outcome ≠ .sent := by
  intro hsent
  cases (writeResult_of_sent hsent).symm.trans (writeResult_of_not_returns h)

/-- `SendOnly` whose write does not return has emitted its frame and waits (70_reset_and_hazards.md R210). -/
theorem sendOnly_of_not_returns (op a : Byte) {s : State} (h : writeReturns s = false) :
    (sendOnly op a s).result = .pending ∧ (sendOnly op a s).txi.val = 8 ∧
      (sendOnly op a s).calls = s.calls ++ [.write (serialize (buildRequest op a 0 0 0))] := by
  rw [sendOnly_eq, serialize_eq_toList, buildRequest_toList_eq_commandFrame]
  exact ⟨writeResult_of_not_returns h, rfl, rfl⟩

/-! ### What a command forgets -/

/-- `s` with the five registers of `c`. -/
def withRegistersOf (c s : State) : State :=
  { s with txf := c.txf, txi := c.txi, acc := c.acc, rxf := c.rxf, rxi := c.rxi }

/-- The transport's answers are none of the codec's registers. -/
@[simp] theorem writeAnswer_withRegistersOf (c s : State) : writeAnswer (withRegistersOf c s) = writeAnswer s := rfl

/-- What `SendOnly` leaves beside the receive side does not depend on the registers it finds
(70_reset_and_hazards.md R212). -/
theorem sendOnly_withRegistersOf (op a : Byte) (c s : State) :
    sendOnly op a (withRegistersOf c s) =
      { sendOnly op a s with
        rxf := (sendOnly op a (withRegistersOf c s)).rxf
        rxi := (sendOnly op a (withRegistersOf c s)).rxi } := by
  rw [sendOnly_eq op a (withRegistersOf c s), sendOnly_eq op a s]
  rfl

/-- After `RXCLR`, `BUILD`, `SER` and `TWrite` no agent can tell what the registers held (70_reset_and_hazards.md R212). -/
theorem indistinguishable_sendRequest_clearRx (op a : Byte) (c s : State) :
    indistinguishable (sendRequest op a (clearRx s)) (sendRequest op a (clearRx (withRegistersOf c s))) := by
  have hbuilt : indistinguishable (buildFrame op a unusedParameter unusedParameter unusedParameter (clearRx s))
      (buildFrame op a unusedParameter unusedParameter unusedParameter (clearRx (withRegistersOf c s))) :=
    indistinguishable_iff.2 ⟨rfl, rfl, rfl⟩
  exact hbuilt.finishTx.transportWrite _

/-- The same after the whole of `SendRecv`. -/
theorem indistinguishable_sendRecv (op a : Byte) (d : Timeout) (c s : State) :
    indistinguishable (sendRecv op a d s) (sendRecv op a d (withRegistersOf c s)) := by
  have hrequest := indistinguishable_sendRequest_clearRx op a c s
  unfold sendRecv
  rw [writeAnswer_withRegistersOf]
  split
  · exact hrequest.receiveStatus d
  · exact hrequest.setResult _
  · exact hrequest.setResult _

/-- Two states that no agent can tell apart, with the same `TXF` and `ACC`, differ on the receive side only. -/
theorem indistinguishable.eq_with_rx {t u : State} (h : indistinguishable t u) (htxf : t.txf = u.txf)
    (hacc : t.acc = u.acc) : u = { t with rxf := u.rxf, rxi := u.rxi } := by
  have hu := congrArg (fun v => setTxf u.txf (setAcc u.acc (setRxf u.rxf v))) h.blanked
  have hu' : { t with txf := u.txf, acc := u.acc, rxf := u.rxf } = u := hu
  rw [← htxf, ← hacc] at hu'
  rw [← h.rxi]
  exact hu'.symm

/-- What `SendRecv` leaves does not depend on the registers it finds, but for bytes of `RXF` not received
(70_reset_and_hazards.md R212). -/
theorem sendRecv_withRegistersOf (op a : Byte) (d : Timeout) (c s : State) :
    sendRecv op a d (withRegistersOf c s) =
      { sendRecv op a d s with
        rxf := (sendRecv op a d (withRegistersOf c s)).rxf
        rxi := (sendRecv op a d (withRegistersOf c s)).rxi } :=
  (indistinguishable_sendRecv op a d c s).eq_with_rx (by rw [sendRecv_txf, sendRecv_txf])
    (by rw [sendRecv_acc, sendRecv_acc])

/-- A response-bearing command is `SendRecv` with one timeout in every state (43_commands.md R152, R167). -/
theorem exec_of_not_keepsReceiving_forall {i : Instr} {k : Command} {a : Byte} (h : commandOf i = some (k, a))
    (hk : keepsReceiving i = false) :
    ∃ d, ∀ s, exec i s = .next (sendRecv (commandOpcode Config.vocab k) a d s) := by
  cases i with
  | cmdIsPressed d | cmdUserCount d | cmdIdentify d | cmdLastId d =>
    cases h
    exact ⟨d, fun _ => rfl⟩
  | cmdOpen | cmdClose | cmdLed | cmdEnroll | cmdDeleteOne | cmdDeleteAll | cmdCancelEnroll => cases hk
  | request | response | csum | build | txpop | ser | rxclr | rxpush | parse | rdstat | reset => cases h

/-! ### A read that gets the module's response -/

/-- Under `TransportFair`, `SendRecv` whose arrivals are the eight bytes of a frame returns that frame's status byte and
leaves it in `RXF` (43_commands.md R152). -/
theorem sendRecv_of_response {op a : Byte} {d : Timeout} {s : State} {response : Frame}
    (hsent : (writeAnswer s).outcome = .sent) (hfair : transportFair s = true)
    (harrivals : commandArrivals s = serialize response) :
    (sendRecv op a d s).result = .okByte (statusOf response) ∧ (sendRecv op a d s).rxf = response := by
  obtain ⟨hrxi, hrxf⟩ := pushAllRx_of_cleared response [] (s := clearRx s) rfl
  rw [List.append_nil, ← serialize_eq_toList, ← harrivals] at hrxi hrxf
  rw [sendRecv_of_fair hsent hfair, hrxi, hrxf]
  exact ⟨rfl, rfl⟩

/-- Under `QuietLink`, fewer bytes than the module's response arrive, or all of it (70_reset_and_hazards.md R217). -/
theorem quietLink_cases {response : Frame} {s : State} (h : quietLink response s = true) :
    commandArrivals s = serialize response ∨ (commandArrivals s).length < 8 := by
  have hprefix : commandArrivals s <+: serialize response := List.isPrefixOf_iff_prefix.1 h
  have hlength : (serialize response).length = 8 := by simp
  rcases Nat.lt_or_ge (commandArrivals s).length 8 with hlt | hge
  · exact .inr hlt
  · exact .inl (hprefix.eq_of_length_le (by omega))

end Sys2Proof.Machine

open Sys2Proof Sys2Proof.Machine Sys2Proof.Claims

/-- Settles O1: power-on and `RESET` set both indices, and `RESET` writes no record. -/
theorem resetLeavesBothSidesIdle : Obligations.ResetLeavesBothSidesIdle := by
  unfold Obligations.ResetLeavesBothSidesIdle
  exact ⟨⟨rfl, rfl, rfl, rfl⟩, fun s =>
    ⟨_, exec_reset_eq s, rfl, rfl, rfl, rfl, rfl, rfl, rfl, rfl, rfl, rfl, rfl, rfl⟩⟩

/-- Settles O2: at `TXI = 8` nothing is left to emit, and at `RXI = 0` nothing has been received. -/
theorem afterResetNothingCanBeRead : Obligations.AfterResetNothingCanBeRead := by
  unfold Obligations.AfterResetNothingCanBeRead
  intro s t h
  rw [exec_reset_eq] at h
  cases h
  have hidle : (setResult .nothing (resetCodec s)).txi.val = 8 := rfl
  have hshort : (setResult .nothing (resetCodec s)).rxi.val < 8 := Nat.zero_lt_succ 7
  exact ⟨exec_txpop_of_eq hidle, exec_ser_of_eq hidle, exec_parse_of_short hshort, exec_rdstat_of_short hshort⟩

/-- Settles O50: only noting a pending result writes who is blocked. -/
theorem blockedHostIssuesNothing : Obligations.BlockedHostIssuesNothing := by
  unfold Obligations.BlockedHostIssuesNothing
  refine ⟨fun s e rest hissued hb => ?_, fun s t => step_blocked_cases, fun s t e rest => mem_blocked_of_step_pending⟩
  rw [step_of_issued hissued]
  exact if_pos hb

/-- Settles O34: a write that does not return ends either template as `SendOnly`; after one that succeeds `SendRecv` waits
in its read, with what has arrived in the receive register. -/
theorem commandsWaitWhileTheTransportDoesNotAnswer : Obligations.CommandsWaitWhileTheTransportDoesNotAnswer := by
  unfold Obligations.CommandsWaitWhileTheTransportDoesNotAnswer
  refine ⟨fun i k a s hcommand hwaits => ?_, fun d s i op hmem hsent hwaits => ?_⟩
  · obtain ⟨-, hexec⟩ | ⟨-, d, hexec⟩ := exec_of_commandOf hcommand s
    · exact ⟨_, hexec, sendOnly_of_not_returns _ a hwaits⟩
    · rw [sendRecv_eq_sendOnly (outcome_ne_sent_of_not_returns hwaits)] at hexec
      exact ⟨_, hexec, sendOnly_of_not_returns _ a (s := clearRx s) hwaits⟩
  · obtain ⟨hindex, -⟩ := pushAllRx_clearRx_received (commandArrivals s) s
    refine ⟨_, exec_of_mem_sendRecvCommands hmem s, ?_⟩
    rw [sendRecv_sent_eq op 0 d s hsent, buildRequest_toList_eq_commandFrame]
    exact ⟨if_neg (by simp [hwaits]), rfl, rfl, hindex⟩

/-- Settles O45: `SendOnly` reads none of the registers but to receive into them, and after the `RXCLR` and `BUILD` of
`SendRecv` no agent can tell what they held. -/
theorem commandsForgetEarlierCodecState : Obligations.CommandsForgetEarlierCodecState := by
  unfold Obligations.CommandsForgetEarlierCodecState
  intro i k a s r hcommand hr
  have hr' : r = withRegistersOf r s := hr
  cases hk : keepsReceiving i with
  | true =>
    have hexec := fun s => exec_of_keepsReceiving i k a s hcommand hk
    have hforgotten := sendOnly_withRegistersOf (commandOpcode Config.vocab k) a r s
    have hrx := sendOnly_rx (commandOpcode Config.vocab k) a r
    have hanswer := writeAnswer_withRegistersOf r s
    rw [← hr'] at hforgotten hanswer
    rw [hanswer] at hrx
    exact ⟨_, _, hexec s, hexec r, hforgotten, fun _ => hrx, nofun⟩
  | false =>
    obtain ⟨d, hexec⟩ := exec_of_not_keepsReceiving_forall hcommand hk
    have hforgotten := sendRecv_withRegistersOf (commandOpcode Config.vocab k) a d r s
    have hsame := indistinguishable_sendRecv (commandOpcode Config.vocab k) a d r s
    rw [← hr'] at hforgotten hsame
    have hreceived := hsame.receivedPart
    rw [receivedPart, receivedPart, ← hsame.rxi] at hreceived
    exact ⟨_, _, hexec s, hexec r, hforgotten, nofun, fun _ => ⟨hsame.rxi.symm, hreceived.symm⟩⟩

/-- Settles O43: with all of the response its status byte is returned; with less, or a failed write, the error. -/
theorem quietLinkMakesTheValueTheModules : Obligations.QuietLinkMakesTheValueTheModules := by
  unfold Obligations.QuietLinkMakesTheValueTheModules
  intro d s i op response hmem hquiet hfair
  refine ⟨_, exec_of_mem_sendRecvCommands hmem s, ?_, fun hsent hall => (sendRecv_of_response hsent hfair hall).1⟩
  by_cases hsent : (writeAnswer s).outcome = .sent
  · obtain hall | hshort := quietLink_cases hquiet
    · obtain ⟨hresult, hrxf⟩ := sendRecv_of_response (op := op) (a := 0) (d := d) hsent hfair hall
      exact .inl ⟨hresult, beq_iff_eq.2 hrxf⟩
    · obtain ⟨t, hexec, hresult, -⟩ := sendRecvShortReadIsTransportError d s i op hmem hfair hsent hshort
      cases hexec.symm.trans (exec_of_mem_sendRecvCommands hmem s)
      exact .inr hresult
  · rw [sendRecv_eq_sendOnly hsent]
    exact .inr (writeResult_of_returns (s := s) (transportFair_iff.1 hfair).1 hsent)
end

section
/-! PROOF. 70_reset_and_hazards.md R209 and R217: the operations of a command, issued one by one under `ExclusiveUse`, with
no `RESET` in between and pushes anywhere. -/

namespace Sys2Proof.Machine

open Sys2Proof.Claims

/-! ### What is issued under `ExclusiveUse` -/

/-- The caller issued it, or it is the transport's `RXPUSH` of a byte. -/
def isOwnOrPush (c : Nat) (e : Issued) : Prop :=
  e.issuer = .host c ∨ ∃ b, e = ⟨.transport, byName (.rxpush b)⟩

/-- The bytes pushed by what is issued, in order. -/
def pushedBytes (es : List Issued) : List Byte := es.filterMap fun e => pushOf e.event

/-- The only event that pushes a byte is its `RXPUSH` by name. -/
theorem eq_rxpush_of_pushOf {e : Event} {b : Byte} (h : pushOf e = some b) : e = byName (.rxpush b) := by
  unfold pushOf at h
  split at h
  · cases h
    rfl
  all_goals cases h

/-- With no other host, and beside the hosts only pushes, all that is issued is the caller's or a push
(70_reset_and_hazards.md R209). -/
theorem isOwnOrPush_of_mem {c : Nat} {es : List Issued} (huse : exclusiveUse c es = true)
    (hpush : othersOnlyPush es = true) : ∀ e ∈ es, isOwnOrPush c e := by
  intro ⟨who, e⟩ he
  have hissuer := List.all_eq_true.1 huse _ he
  have hother := List.all_eq_true.1 hpush _ he
  cases who with
  | host d =>
    have hd : d = c := by simpa using hissuer
    exact .inl (congrArg Issuer.host hd)
  | transport =>
    obtain ⟨b, hb⟩ := Option.isSome_iff_exists.1 hother
    exact .inr ⟨b, congrArg (Issued.mk .transport) (eq_rxpush_of_pushOf hb)⟩
  | platform => cases hother

/-- The caller issues nothing exactly where it is no event's issuer. -/
theorem ownEvents_eq_nil_iff {c : Nat} {es : List Issued} :
    ownEvents c es = [] ↔ ∀ e ∈ es, e.issuer ≠ .host c := by
  simp [ownEvents]

/-- What is issued can be cut at any event of the caller. -/
theorem exists_split_of_ownEvents {c : Nat} {es : List Issued} (pre : List Event) {e : Event} {post : List Event}
    (h : ownEvents c es = pre ++ e :: post) :
    ∃ before after, es = before ++ ⟨.host c, e⟩ :: after ∧ ownEvents c before = pre ∧ ownEvents c after = post := by
  obtain ⟨own, fromHere, hfilter, hpre, hpost⟩ := List.map_eq_append_iff.1 h
  obtain ⟨x, own', rfl, rfl, htail⟩ := List.map_eq_cons_iff.1 hpost
  obtain ⟨l, l', rfl, hl, hl'⟩ := List.filter_eq_append_iff.1 hfilter
  obtain ⟨others, after, rfl, hothers, hx, hafter⟩ := List.filter_eq_cons_iff.1 hl'
  have hissuer : x.issuer = .host c := by simpa using hx
  have hnone : others.filter (fun e => e.issuer == .host c) = [] := List.filter_eq_nil_iff.2 hothers
  refine ⟨l ++ others, after, ?_, ?_, ?_⟩
  · rw [← hissuer, List.append_assoc]
  · rw [ownEvents, List.filter_append, hl, hnone, List.append_nil, hpre]
  · rw [ownEvents, hafter, htail]

/-- Where the caller issues nothing, there are only the transport's pushes. -/
theorem eq_pushEvents_of_ownEvents_nil {c : Nat} {es : List Issued} (hes : ∀ e ∈ es, isOwnOrPush c e)
    (hown : ownEvents c es = []) : es = pushEvents (pushedBytes es) := by
  rw [ownEvents_eq_nil_iff] at hown
  induction es with
  | nil => rfl
  | cons e es ih =>
    obtain ⟨hown_or_push, hrest⟩ := List.forall_mem_cons.1 hes
    obtain ⟨hne, hnone⟩ := List.forall_mem_cons.1 hown
    obtain hissuer | ⟨b, rfl⟩ := hown_or_push
    · exact absurd hissuer hne
    · exact congrArg _ (ih hrest hnone)

theorem pushedBytes_append (es fs : List Issued) : pushedBytes (es ++ fs) = pushedBytes es ++ pushedBytes fs :=
  List.filterMap_append

theorem pushedBytes_cons_of_none {e : Issued} (h : pushOf e.event = none) (es : List Issued) :
    pushedBytes (e :: es) = pushedBytes es := List.filterMap_cons_none h

/-- The bytes pushed after the caller's first `RXCLR`. -/
theorem bytesAfterClear_of_split {c : Nat} {before : List Issued} (h : ownEvents c before = [])
    (after : List Issued) : bytesAfterClear c (before ++ byHost c .rxclr :: after) = pushedBytes after := by
  rw [ownEvents_eq_nil_iff] at h
  induction before with
  | nil => exact if_pos rfl
  | cons e before ih =>
    obtain ⟨hne, h⟩ := List.forall_mem_cons.1 h
    have hnot : e ≠ byHost c .rxclr := fun he => hne (congrArg Issued.issuer he)
    exact (if_neg hnot).trans (ih h)

/-! ### A call during which nothing arrives -/

@[simp] theorem pushAllRx_calls (bs : List Byte) (s : State) : (pushAllRx bs s).calls = s.calls := by
  rw [pushAllRx_frame]

@[simp] theorem pushAllRx_delivered (bs : List Byte) (s : State) : (pushAllRx bs s).delivered = s.delivered := by
  rw [pushAllRx_frame]

@[simp] theorem pushAllRx_readAnswers (bs : List Byte) (s : State) : (pushAllRx bs s).readAnswers = s.readAnswers := by
  rw [pushAllRx_frame]

/-- `BUILD`, `SER` and a `TWrite` that succeeds while nothing arrives (43_commands.md R151). -/
theorem sendRequest_of_sent (op a : Byte) {s : State} (h : writeAnswer s = ⟨.sent, []⟩) :
    sendRequest op a s =
      { s with
        txf := buildRequest op a 0 0 0
        txi := 8
        acc := sum16 op a 0 0 0
        emitted := s.emitted ++ commandFrame op a
        calls := s.calls ++ [.write (commandFrame op a)]
        delivered := s.delivered ++ commandFrame op a
        writeAnswers := s.writeAnswers.tail
        draws := s.draws + (if s.writeAnswers.isEmpty then 1 else 0) } := by
  rw [sendRequest_eq, h, buildRequest_toList_eq_commandFrame]
  rfl

/-- Bytes received after such a write might as well be received before it (41_serializer.md R117). -/
theorem pushAllRx_sendRequest (bs : List Byte) (op a : Byte) {s : State} (h : writeAnswer s = ⟨.sent, []⟩) :
    pushAllRx bs (sendRequest op a s) = sendRequest op a (pushAllRx bs s) := by
  have hrequest := sendRequest_of_sent op a h
  rw [pushAllRx_of_same_rx bs (sendRequest op a s) s (by rw [hrequest]) (by rw [hrequest]), hrequest,
    sendRequest_of_sent op a ((writeAnswer_pushAllRx bs s).trans h), pushAllRx_frame bs s]

/-- What such a request and then a `TRead` that returns while nothing arrives leave: the read succeeds exactly when the
register was full before (43_commands.md R150). -/
theorem performEvent_tread_sendRequest (op a : Byte) (d : Timeout) {s : State} {ras : List ReadAnswer}
    (hwrite : writeAnswer s = ⟨.sent, []⟩) (hread : s.readAnswers = ⟨[], true⟩ :: ras) :
    performEvent (.tread d) (sendRequest op a s) = .next { s with
      txf := buildRequest op a 0 0 0
      txi := 8
      acc := sum16 op a 0 0 0
      result := if s.rxi.val = 8 then .ok else .err .transportError
      emitted := s.emitted ++ commandFrame op a
      calls := s.calls ++ [.write (commandFrame op a), .read 8 d]
      delivered := s.delivered ++ commandFrame op a
      writeAnswers := s.writeAnswers.tail
      readAnswers := ras
      draws := s.draws + (if s.writeAnswers.isEmpty then 1 else 0) } := by
  have hanswer : readAnswer (sendRequest op a s) = ⟨[], true⟩ := by
    rw [sendRequest_of_sent op a hwrite, readAnswer, hread]
  rw [performEvent_tread, transportRead_eq, hanswer, sendRequest_of_sent op a hwrite]
  simp [hread, setResult]

/-- Of a full register that holds `f` the status is byte 2 of `f` (42_deserializer.md R135). -/
theorem exec_rdstat_of_received {s : State} {f : Frame} (hfull : s.rxi.val = 8) (hf : s.rxf = f) :
    exec .rdstat s = .next (setResult (.byte f[2]) s) := by
  rw [exec_rdstat_of_full hfull, hf]

/-! ### The operations of a command among pushes -/

section
variable {c : Nat} {op p : Byte} {es : List Issued} {s : State} (hes : ∀ e ∈ es, isOwnOrPush c e)
  (hc : .host c ∉ s.blocked) (ht : .transport ∉ s.blocked)
include hes ht

/-- Where the caller issues nothing, what is pushed is received (20_memory.md R43). -/
theorem runsTo_of_ownEvents_nil (hown : ownEvents c es = []) : runsTo es s (pushAllRx (pushedBytes es) s) := by
  have hpushes := runsTo_pushEvents (pushedBytes es) ht
  rwa [← eq_pushEvents_of_ownEvents_nil hes hown] at hpushes

include hc

/-- `BUILD` and `SER` leave the same, wherever bytes are pushed among them (41_serializer.md R117). -/
theorem runsTo_of_ownEvents_build_ser (hown : ownEvents c es = [byName (.build op p 0 0 0), byName .ser]) :
    runsTo es s (finishTx (buildFrame op p 0 0 0 (pushAllRx (pushedBytes es) s))) := by
  obtain ⟨w, rest, rfl, hw, hrest⟩ := exists_split_of_ownEvents [] hown
  obtain ⟨x, y, rfl, hx, hy⟩ := exists_split_of_ownEvents [] hrest
  simp only [List.forall_mem_append, List.forall_mem_cons] at hes
  obtain ⟨hes_w, -, hes_x, -, hes_y⟩ := hes
  have hrun := runsTo_build_ser c op p (pushedBytes w) (pushedBytes x) (pushedBytes y) hc ht
  rw [← eq_pushEvents_of_ownEvents_nil hes_w hw, ← eq_pushEvents_of_ownEvents_nil hes_x hx,
    ← eq_pushEvents_of_ownEvents_nil hes_y hy] at hrun
  rw [pushedBytes_append, pushedBytes_cons_of_none rfl, pushedBytes_append, pushedBytes_cons_of_none rfl]
  simpa only [byHost, List.append_assoc, List.cons_append, List.nil_append] using hrun

/-- A response-bearing command up to its write and what is pushed before its read: of the bytes received, those after the
`RXCLR` count (43_commands.md R152). -/
theorem runsTo_of_ownEvents_request
    (hown : ownEvents c es =
      [byName .rxclr, byName (.build op 0 0 0 0), byName .ser, .twrite (commandFrame op 0)])
    (hanswer : writeAnswer s = ⟨.sent, []⟩) :
    ∃ early, runsTo es s (sendRequest op 0 (pushAllRx (bytesAfterClear c es) (clearRx (pushAllRx early s)))) := by
  obtain ⟨rest, z, rfl, hrest, hz⟩ :=
    exists_split_of_ownEvents [byName .rxclr, byName (.build op 0 0 0 0), byName .ser] hown
  obtain ⟨v, ops, rfl, hv, hops⟩ := exists_split_of_ownEvents [] hrest
  simp only [List.forall_mem_append, List.forall_mem_cons] at hes
  obtain ⟨⟨hes_v, -, hes_ops⟩, -, hes_z⟩ := hes
  have hearly := runsTo_of_ownEvents_nil hes_v ht hv
  have hclear : runsTo [byHost c .rxclr] (pushAllRx (pushedBytes v) s) (clearRx (pushAllRx (pushedBytes v) s)) :=
    runsTo_byHost (by simpa) fun _ => ⟨.nothing, nofun, rfl⟩
  have hserialized := runsTo_of_ownEvents_build_ser (s := clearRx (pushAllRx (pushedBytes v) s)) hes_ops
    (by simpa [clearRx]) (by simpa [clearRx]) hops
  have hwritten := runsTo_twrite_of_sent (runsTo_append (runsTo_append hearly hclear) hserialized)
    (by simpa [clearRx]) (by simp [hanswer])
  have hpushed := runsTo_append hwritten (runsTo_of_ownEvents_nil hes_z (by simpa [clearRx]) hz)
  rw [pushAllRx_sendRequest _ op 0 (by simp [hanswer]), ← pushAllRx_append] at hpushed
  have hbytes : bytesAfterClear c ((v ++ byHost c .rxclr :: ops) ++ ⟨.host c, .twrite (commandFrame op 0)⟩ :: z) =
      pushedBytes ops ++ pushedBytes z := by
    rw [List.append_assoc, List.cons_append, bytesAfterClear_of_split hv, pushedBytes_append,
      pushedBytes_cons_of_none rfl]
  rw [← hbytes] at hpushed
  refine ⟨pushedBytes v, ?_⟩
  simpa only [byHost, byName, List.append_assoc, List.cons_append, List.nil_append] using hpushed
end

end Sys2Proof.Machine

open Sys2Proof Sys2Proof.Machine Sys2Proof.Claims

/-- Settles O42: what is issued is the command's operations with pushes among them, which leave what the operations do
after all the pushes, and of these only those after the `RXCLR` show. -/
theorem exclusiveUseMakesCommandsWriteTheirFrame : Obligations.ExclusiveUseMakesCommandsWriteTheirFrame := by
  unfold Obligations.ExclusiveUseMakesCommandsWriteTheirFrame
  refine ⟨fun a s i op p c es was _ huse hpush hown hc ht hwrites => ?_,
    fun d s i op c es was ras _ huse hpush hown hc ht hwrites hreads => ?_⟩
  · have hes := isOwnOrPush_of_mem huse hpush
    have hanswer : writeAnswer s = ⟨.sent, []⟩ := by rw [writeAnswer, hwrites]
    have hrun := runIssued_append_singleton (who := .host c) (runsTo_of_ownEvents_build_ser hes hc ht hown) (by simpa)
      fun r => performEvent_twrite_commandFrame op p r _
    have hok : (sendOnly op p (pushAllRx (pushedBytes es) s)).result = .ok :=
      writeResult_of_sent (by simp [hanswer])
    rw [noteBlocked_of_ne_pending _ _ (by simp [hok])] at hrun
    refine ⟨_, hrun, hok, ?_⟩
    rw [sendOnly_eq, buildRequest_toList_eq_commandFrame]
    simp [hanswer, deliveredPart]
  · have hes := isOwnOrPush_of_mem huse hpush
    have hanswer : writeAnswer s = ⟨.sent, []⟩ := by rw [writeAnswer, hwrites]
    obtain ⟨early, hrequest⟩ := runsTo_of_ownEvents_request hes hc ht hown hanswer
    obtain ⟨hindex, hreceived⟩ := pushAllRx_clearRx_received (bytesAfterClear c es) (pushAllRx early s)
    have hrun := runIssued_append_singleton (who := .host c) (e := .tread d) hrequest (by simpa [clearRx]) fun r => by
      rw [performEvent_tread_setResult]
      exact performEvent_tread_sendRequest op 0 d (by simp [hanswer]) (by simpa [clearRx])
    rw [noteBlocked_of_ne_pending _ _ (by dsimp only; split_ifs <;> nofun)] at hrun
    refine ⟨_, hrun, buildRequest_toList_eq_commandFrame op 0, rfl, by simp [clearRx], by simp [clearRx],
      by simp [clearRx], hindex, ?_, fun hshort => if_neg (Nat.ne_of_lt hshort), ?_⟩
    · rw [serialize_eq_toList]
      exact hreceived
    · intro b0 b1 b2 b3 b4 b5 b6 b7 more hbytes
      obtain ⟨hrxi, hrxf⟩ := pushAllRx_of_cleared #v[b0, b1, b2, b3, b4, b5, b6, b7] more
        (s := clearRx (pushAllRx early s)) rfl
      rw [hbytes]
      have hfull := congrArg Fin.val hrxi
      refine ⟨if_pos hfull, exec_rdstat_of_received (f := #v[b0, b1, b2, b3, b4, b5, b6, b7]) ?_ ?_⟩
      · exact hfull
      · exact hrxf
end
